-- ==== Sys2Proof/Word.lean ====
section
/-! DEFINITION. The widths of the block's values: a byte, a nibble, and a register address of the bus
(spec/00_scope.md R7; spec/20_memory.md R40). -/

namespace Sys2Proof

/-- A byte is 8 bits, bit 0 the least significant (spec/00_scope.md R7). -/
abbrev Byte := BitVec 8

/-- A nibble, half of a byte (spec/00_scope.md R7). -/
abbrev Nibble := BitVec 4

/-- A register address of the bus, 0x00 to 0x7F (spec/20_memory.md R40). -/
abbrev RegAddr := BitVec 7

end Sys2Proof
end

