-- ==== Sys2Proof/Config.lean ====
section
/-! DEFINITION. What an instantiation of the block fixes, and the free values: the OPEN parameters of
spec/92_eei_decisions.md, and every value the spec leaves unknown. A free value is an opaque constant without a
body, so no proof can see what it is and a theorem about it holds for every value. -/

namespace Sys2Proof.Config

/-- The parameter READ_OPS (spec/92_eei_decisions.md D4): whether the two reserved operation types are refused
or issue a bus read. -/
inductive ReadOps where
  | refuse
  | enabled
deriving DecidableEq, Repr

/-- This hardware's setting, READ_OPS = `refuse` (spec/41_commands.md R93 and R94; log 13). -/
def readOps : ReadOps := .refuse

/-- A bus error: a token of the opaque type E (spec/60_exceptions.md R132, D11). The block compares, inspects and
makes none: it hands back the token it was given (log 9). -/
structure BusError where
  token : Nat
deriving DecidableEq, Repr

/-- What the transport does with one bus operation (spec/00_scope.md R8; spec/70_reset_and_hazards.md R159):
it completes, it fails with an error, or it never answers. -/
inductive BusAnswer where
  | ok
  | err (e : BusError)
  | never
deriving DecidableEq, Repr, Inhabited

/-- FREE VALUE. The number behind DEFAULT_BASE, any of 0x00 to 0x7C: the premise of spec/10_state.md R33 is the
type (D8; log 6). -/
opaque defaultBaseChoice : Fin 0x7D

/-- DEFAULT_BASE, the base address that `CONFIG Default` loads (spec/10_state.md R33; log 6). -/
def defaultBase : Byte := BitVec.ofNat 8 defaultBaseChoice.val

/-- FREE VALUE. PIXEL_ENCODE: the payload of the data write of one pixel (spec/42_driver_layer.md R122; log 7). -/
opaque pixelEncode : Int → Int → Byte → List Byte

/-- FREE VALUE. The transport's answer to the bus operation that stands at this index of the TRACE, where the
state lists no answer (spec/70_reset_and_hazards.md R159; log 8). -/
opaque busAnswer : Nat → BusAnswer

/-- FREE VALUE. How many bytes of a failed write reached the device, for the bus operation at this index of the
TRACE (spec/20_memory.md R56, D19; log 10). -/
opaque deliveredOnError : Nat → Nat

/-- FREE VALUE. The byte at the second index of what a bus read returns, for the bus operation at the first index
of the TRACE (spec/41_commands.md R93 and R94; log 13). -/
opaque readByte : Nat → Nat → Byte

/-- FREE VALUE. What BASE holds after the RESET request of this number (spec/10_state.md R34; log 5). -/
opaque baseAfterReset : Nat → Byte

end Sys2Proof.Config
end

