-- ==== Sys2Proof/Syntax.lean ====
section
/-! DEFINITION. The instructions: one constructor for each row of spec/opcode_table.json. -/

namespace Sys2Proof

/-- The four named presets of a configuration request (spec/10_state.md R32; spec/30_encoding.md R63). -/
inductive Preset where
  | A
  | B
  | C
  | D
deriving DecidableEq, Repr

/-- The four operation types, the input of the register-offset multiplexer (spec/40_offset_mux.md R80). -/
inductive OperationType where
  | setColumnAddress
  | readStatus
  | writeData
  | readData
deriving DecidableEq, Repr

/-- A logical pixel: a coordinate pair, mathematical integers, and an 8-bit grayscale value
(spec/42_driver_layer.md R117, R119; D25). -/
structure Pixel where
  x : Int
  y : Int
  luma : Byte
deriving DecidableEq, Repr

/-- The rows of spec/opcode_table.json, in its order. -/
inductive Instr where
  /-- SetColumnAddress (spec/41_commands.md R91). -/
  | setColumnAddress (col : Byte)
  /-- ReadStatus (R93). The field `count` exists only under READ_OPS = enabled (spec/30_encoding.md R61). -/
  | readStatus (count : Nat)
  /-- WriteData (R92). -/
  | writeData (data : List Byte)
  /-- ReadData (R94). The field `count` exists only under READ_OPS = enabled. -/
  | readData (count : Nat)
  /-- SETCOL.LO, the wire byte 0000llll (spec/30_encoding.md R64). -/
  | setcolLo (l : Nibble)
  /-- SETCOL.HI, the wire byte 0001hhhh (R64). -/
  | setcolHi (h : Nibble)
  /-- DATA, a wire byte of a WriteData payload (R65). -/
  | data (d : Byte)
  /-- CONFIG.Default (spec/70_reset_and_hazards.md R151). -/
  | configDefault
  /-- CONFIG.Preset (R152). -/
  | configPreset (sel : Preset)
  /-- CONFIG.Custom (R153). -/
  | configCustom (addr : Byte)
  /-- CONFIG.(unassigned), the mode code 0b11 (R154). -/
  | configUnassigned
  /-- RESET (R150). -/
  | reset
  /-- The driver's `new(bus)` (spec/42_driver_layer.md R111). -/
  | drvNew
  /-- The driver's `new_with_address(bus, option)` (R112). -/
  | drvNewWithAddress (option : Preset)
  /-- The driver's `new_custom_address(bus, address)` (R113). -/
  | drvNewCustomAddress (address : Byte)
  /-- The driver's `write_data(data)` (R114). -/
  | drvWriteData (data : List Byte)
  /-- The driver's `set_column_address(column)`, of either width (R115). -/
  | drvSetColumnAddress (column : Nat)
  /-- The driver's `draw((x, y), luma)` for one logical pixel (R117, R118). -/
  | drvDraw (x y : Int) (luma : Byte)
  /-- The driver's `size()` (R116). -/
  | drvSize
deriving DecidableEq, Repr

end Sys2Proof
end

