-- ==== Sys2Proof/WellFormed.lean ====
section
/-! DEFINITION. Which instructions are well formed. Every operand type holds exactly the values its field can
hold, so one check is left: the field `count` of the two reserved reads "does not exist when READ_OPS = refuse"
(spec/30_encoding.md R61), which a term shows by carrying 0 there. -/

namespace Sys2Proof

/-- A `count` may be carried only where the field exists (spec/30_encoding.md R61). -/
def countAllowed (ops : Config.ReadOps) (count : Nat) : Bool :=
  match ops with
  | .enabled => true
  | .refuse => count == 0

/-- The well-formed instructions of this hardware. -/
def wellFormed : Instr → Bool
  | .setColumnAddress _ => true
  | .readStatus count => countAllowed Config.readOps count
  | .writeData _ => true
  | .readData count => countAllowed Config.readOps count
  | .setcolLo _ => true
  | .setcolHi _ => true
  | .data _ => true
  | .configDefault => true
  | .configPreset _ => true
  | .configCustom _ => true
  | .configUnassigned => true
  | .reset => true
  | .drvNew => true
  | .drvNewWithAddress _ => true
  | .drvNewCustomAddress _ => true
  | .drvWriteData _ => true
  | .drvSetColumnAddress _ => true
  | .drvDraw _ _ _ => true
  | .drvSize => true

end Sys2Proof
end

