-- ==== Sys2Proof/Decode.lean ====
section
/-! DEFINITION. The decoder and the encoder of request packets.

The spec fixes the two-bit codes of a request (spec/30_encoding.md R62, R63) and the wire bytes (R64, R65), and says
that a request has no packed word: its fields are separate (R61). How the fields of ONE request stand in a packet of
bytes is therefore the model's own (DESIGN CHOICE, log 1):

| first byte | what follows | request |
|---|---|---|
| 0x00 + op | col, then the bytes of data | a request REQ (R61) |
| 0x04 to 0x0F, 0x10 to 0x1F | nothing | a bare wire byte SETCOL.LO or SETCOL.HI by its own pattern (R64) |
| 0x20 + mode | sel, addr | a configuration request CFGREQ (R63) |
| 0x24 | nothing | RESET |
| 0x30 | one byte | a wire byte on the command channel (R64) |
| 0x31 | one byte | a wire byte on the data channel (R65) |
| 0x40 | nothing | new(bus) |
| 0x41 | option | new_with_address(bus, option) |
| 0x42 | address | new_custom_address(bus, address) |
| 0x43 | the bytes of data | write_data(data) |
| 0x44 | a number | set_column_address(column) |
| 0x45 | two signed numbers, then luma | draw((x, y), luma) |
| 0x46 | nothing | size() |
-/

namespace Sys2Proof

/-! ## Codes of the request formats -/

/-- The code `op` of an operation type (spec/30_encoding.md R62). -/
def opCode : OperationType → BitVec 2
  | .setColumnAddress => 0b00#2
  | .readStatus => 0b01#2
  | .writeData => 0b10#2
  | .readData => 0b11#2

/-- The operation type of a code: all four codes are assigned (R62). -/
def opOfCode (c : BitVec 2) : OperationType :=
  if c = 0b00#2 then .setColumnAddress
  else if c = 0b01#2 then .readStatus
  else if c = 0b10#2 then .writeData
  else .readData

/-- The code `sel` of a preset, as a byte (spec/30_encoding.md R63). -/
def presetCode : Preset → Byte
  | .A => 0x00#8
  | .B => 0x01#8
  | .C => 0x02#8
  | .D => 0x03#8

/-- The preset of a selector; a byte of 4 or more is not a 2-bit `sel` (R63). -/
def presetOfCode (b : Byte) : Option Preset :=
  if b = 0x00#8 then some .A
  else if b = 0x01#8 then some .B
  else if b = 0x02#8 then some .C
  else if b = 0x03#8 then some .D
  else none

/-! ## Wire bytes -/

/-- SETCOL.LO, 0000llll (spec/30_encoding.md R64, R66: zext_8 of the low nibble). -/
def setcolLoByte (l : Nibble) : Byte := l.setWidth 8

/-- SETCOL.HI, 0001hhhh (R64, R66: 0x10 with the high nibble). -/
def setcolHiByte (h : Nibble) : Byte := 0x10#8 ||| h.setWidth 8

/-- Bits 7 to 4 of a byte, `b[7:4]` (spec/00_scope.md R7). -/
def highNibble (b : Byte) : Nibble := b.extractLsb' 4 4

/-- Bits 3 to 0 of a byte, `b[3:0]`. -/
def lowNibble (b : Byte) : Nibble := b.extractLsb' 0 4

/-! ## Numbers in a packet

The driver layer takes numbers without a width (spec/42_driver_layer.md R115, R117; D25). In a packet a natural
number is its base-128 digits, the lowest first, with 128 added to every digit but the last; an integer is a sign
byte and a natural number. -/

/-- The digits of `n`; the first argument bounds their number (`n` itself always suffices). -/
def encodeNatDigits : Nat → Nat → List Byte
  | 0, n => [BitVec.ofNat 8 n]
  | fuel + 1, n =>
    if n < 128 then [BitVec.ofNat 8 n]
    else BitVec.ofNat 8 (128 + n % 128) :: encodeNatDigits fuel (n / 128)

/-- A natural number in a packet. -/
def encodeNat (n : Nat) : List Byte := encodeNatDigits n n

/-- Reads a natural number and gives back the bytes after it. -/
def decodeNat : List Byte → Option (Nat × List Byte)
  | [] => none
  | b :: bs =>
    if b.toNat < 128 then some (b.toNat, bs)
    else
      match decodeNat bs with
      | some (m, rest) => some (b.toNat - 128 + 128 * m, rest)
      | none => none

/-- An integer in a packet: 0x00 then `n`, or 0x01 then `n` for `-(n + 1)`. -/
def encodeInt : Int → List Byte
  | .ofNat n => 0x00#8 :: encodeNat n
  | .negSucc n => 0x01#8 :: encodeNat n

/-- Reads an integer and gives back the bytes after it. -/
def decodeInt : List Byte → Option (Int × List Byte)
  | [] => none
  | sign :: bs =>
    match decodeNat bs with
    | none => none
    | some (n, rest) =>
      if sign = 0x00#8 then some (.ofNat n, rest)
      else if sign = 0x01#8 then some (.negSucc n, rest)
      else none

/-! ## Decoding -/

/-- Why a packet is no request. -/
inductive DecodeError where
  /-- The packet has no byte. -/
  | emptyPacket
  /-- The first byte names no format of the packed form. -/
  | unknownFormat (tag : Byte)
  /-- The packet ends before the last field of its format. -/
  | missingField
  /-- Bytes stand after the last field of the format. -/
  | extraField
  /-- The preset selector is not a 2-bit code (spec/30_encoding.md R63). -/
  | badSelector (sel : Byte)
  /-- The byte is neither SETCOL.LO nor SETCOL.HI: no such byte appears on the command channel (R71). -/
  | notACommandByte (b : Byte)
  /-- A number of the driver layer does not end, or its sign byte is neither 0x00 nor 0x01. -/
  | badNumber
deriving DecidableEq, Repr

/-- A wire byte of the command channel, by the patterns of R64. -/
def decodeCommandByte (b : Byte) : Except DecodeError Instr :=
  if highNibble b = 0x0#4 then .ok (.setcolLo (lowNibble b))
  else if highNibble b = 0x1#4 then .ok (.setcolHi (lowNibble b))
  else .error (.notACommandByte b)

/-- The field `count` of a reserved read: the number of bytes that follow, where READ_OPS = enabled; under
`refuse` the field does not exist and the bytes are the ignored field `data` (spec/30_encoding.md R61). -/
def decodeCount (ops : Config.ReadOps) (data : List Byte) : Nat :=
  match ops with
  | .enabled => data.length
  | .refuse => 0

/-- The request REQ with its fields `op`, `col`, `data`; a field that `op` does not select is ignored (R61). -/
def decodeReq (op : OperationType) (col : Byte) (data : List Byte) : Instr :=
  match op with
  | .setColumnAddress => .setColumnAddress col
  | .readStatus => .readStatus (decodeCount Config.readOps data)
  | .writeData => .writeData data
  | .readData => .readData (decodeCount Config.readOps data)

/-- The request CFGREQ with its fields `mode`, `sel`, `addr`; a field that `mode` does not select is ignored
(R63). -/
def decodeCfgreq (mode : BitVec 2) (sel addr : Byte) : Except DecodeError Instr :=
  if mode = 0b00#2 then .ok .configDefault
  else if mode = 0b01#2 then
    match presetOfCode sel with
    | some p => .ok (.configPreset p)
    | none => .error (.badSelector sel)
  else if mode = 0b10#2 then .ok (.configCustom addr)
  else .ok .configUnassigned

/-- A packet without fields. -/
def decodeNoField (i : Instr) : List Byte → Except DecodeError Instr
  | [] => .ok i
  | _ :: _ => .error .extraField

/-- A packet with one field of one byte. -/
def decodeOneByte (f : Byte → Except DecodeError Instr) : List Byte → Except DecodeError Instr
  | [] => .error .missingField
  | [b] => f b
  | _ :: _ :: _ => .error .extraField

/-- The option of `new_with_address`. -/
def decodeOption (b : Byte) : Except DecodeError Instr :=
  match presetOfCode b with
  | some p => .ok (.drvNewWithAddress p)
  | none => .error (.badSelector b)

/-- The column of `set_column_address`, a natural number of any width (spec/42_driver_layer.md R115). -/
def decodeColumn (fields : List Byte) : Except DecodeError Instr :=
  match decodeNat fields with
  | some (n, []) => .ok (.drvSetColumnAddress n)
  | some (_, _ :: _) => .error .extraField
  | none => .error .badNumber

/-- The pixel of `draw` (spec/42_driver_layer.md R117). -/
def decodePixel (fields : List Byte) : Except DecodeError Instr :=
  match decodeInt fields with
  | none => .error .badNumber
  | some (x, rest) =>
    match decodeInt rest with
    | none => .error .badNumber
    | some (_, []) => .error .missingField
    | some (y, [luma]) => .ok (.drvDraw x y luma)
    | some (_, _ :: _ :: _) => .error .extraField

/-- The request of a packet whose first byte is `tag`. -/
def decodeTagged (tag : Byte) (fields : List Byte) : Except DecodeError Instr :=
  if tag.toNat < 0x04 then
    match fields with
    | [] => .error .missingField
    | col :: data => .ok (decodeReq (opOfCode (tag.setWidth 2)) col data)
  else if tag.toNat < 0x20 then
    match fields with
    | [] => decodeCommandByte tag
    | _ :: _ => .error .extraField
  else if tag.toNat < 0x24 then
    match fields with
    | [sel, addr] => decodeCfgreq (tag.setWidth 2) sel addr
    | _ :: _ :: _ :: _ => .error .extraField
    | _ => .error .missingField
  else if tag = 0x24#8 then decodeNoField .reset fields
  else if tag = 0x30#8 then decodeOneByte decodeCommandByte fields
  else if tag = 0x31#8 then decodeOneByte (fun d => .ok (.data d)) fields
  else if tag = 0x40#8 then decodeNoField .drvNew fields
  else if tag = 0x41#8 then decodeOneByte decodeOption fields
  else if tag = 0x42#8 then decodeOneByte (fun a => .ok (.drvNewCustomAddress a)) fields
  else if tag = 0x43#8 then .ok (.drvWriteData fields)
  else if tag = 0x44#8 then decodeColumn fields
  else if tag = 0x45#8 then decodePixel fields
  else if tag = 0x46#8 then decodeNoField .drvSize fields
  else .error (.unknownFormat tag)

/-- The request of a packet; every packet is a request or is rejected by name. -/
def decode : List Byte → Except DecodeError Instr
  | [] => .error .emptyPacket
  | tag :: fields => decodeTagged tag fields

/-! ## Encoding -/

/-- The packet of an instruction. -/
def encode : Instr → List Byte
  | .setColumnAddress col => [0x00#8, col]
  | .readStatus count => 0x01#8 :: 0x00#8 :: List.replicate count 0x00#8
  | .writeData data => 0x02#8 :: 0x00#8 :: data
  | .readData count => 0x03#8 :: 0x00#8 :: List.replicate count 0x00#8
  | .setcolLo l => [0x30#8, setcolLoByte l]
  | .setcolHi h => [0x30#8, setcolHiByte h]
  | .data d => [0x31#8, d]
  | .configDefault => [0x20#8, 0x00#8, 0x00#8]
  | .configPreset sel => [0x21#8, presetCode sel, 0x00#8]
  | .configCustom addr => [0x22#8, 0x00#8, addr]
  | .configUnassigned => [0x23#8, 0x00#8, 0x00#8]
  | .reset => [0x24#8]
  | .drvNew => [0x40#8]
  | .drvNewWithAddress option => [0x41#8, presetCode option]
  | .drvNewCustomAddress address => [0x42#8, address]
  | .drvWriteData data => 0x43#8 :: data
  | .drvSetColumnAddress column => 0x44#8 :: encodeNat column
  | .drvDraw x y luma => 0x45#8 :: (encodeInt x ++ (encodeInt y ++ [luma]))
  | .drvSize => [0x46#8]

/-! ## The opcode table's words -/

/-- The bytes of a number, the least significant first: `len` of them. -/
def bytesOfNat : Nat → Nat → List Byte
  | 0, _ => []
  | len + 1, w => BitVec.ofNat 8 (w % 256) :: bytesOfNat len (w / 256)

/-- The packet that a word of the opcode table stands for: its bytes, and as many operand bytes of zeros (at most
two) as its format still needs (log 2). -/
def tablePacket (nbits w : Nat) : List Byte :=
  let p := bytesOfNat ((nbits + 7) / 8) w
  if decode p ≠ .error .missingField then p
  else if decode (p ++ [0x00#8]) ≠ .error .missingField then p ++ [0x00#8]
  else p ++ [0x00#8, 0x00#8]

/-- The instruction that the decoder reads from a word of the opcode table. -/
def decodeTableWord (nbits w : Nat) : Option Instr :=
  match decode (tablePacket nbits w) with
  | .ok i => some i
  | .error _ => none

end Sys2Proof
end

