-- ==== Sys2Proof/Machine/State.lean ====
section
/-! DEFINITION. What the machine holds: the two state elements of the block (spec/10_state.md R20), the observation
of spec/00_scope.md R9, what the spec says of the device behind the bus, and the environment's inputs. -/

namespace Sys2Proof.Machine

/-- CFG, the configuration status (spec/10_state.md R23). -/
inductive Cfg where
  /-- After reset, before any configuration load. -/
  | unconfigured
  /-- A configuration load succeeded; BASE holds its final value. -/
  | operational
  /-- A custom configuration load presented an invalid address; only reset leaves it. -/
  | configFault
deriving DecidableEq, Repr

/-- A bus operation as TRACE records it (spec/00_scope.md R9; spec/30_encoding.md R72: `W addr [bytes]` and
`R addr n`). -/
inductive BusOp where
  | write (addr : RegAddr) (payload : List Byte)
  | read (addr : RegAddr) (count : Nat)
deriving DecidableEq, Repr

/-- One byte that reached the device, and the register (sub-channel) it was delivered to
(spec/20_memory.md R41, R42). -/
structure Delivery where
  reg : RegAddr
  byte : Byte
deriving DecidableEq, Repr

/-- A bus write that the transport is carrying to the device: the register it goes to, and the bytes of its payload
that have not travelled yet, the next one first (spec/20_memory.md R41, R45; log 14). -/
structure Transfer where
  reg : RegAddr
  rest : List Byte
deriving DecidableEq, Repr

/-- What a call of the driver layer in progress has still to do (spec/42_driver_layer.md R117, R119; log 16, 17). -/
inductive Pending where
  /-- The data write of a pixel whose column is selected (R117). -/
  | dataWrite (bytes : List Byte)
  /-- A pixel of the sequence that has not been drawn yet (R119). -/
  | pixel (p : Pixel)
deriving DecidableEq, Repr

/-- Why a request is refused (spec/60_exceptions.md R135; the last one is the driver layer's,
spec/42_driver_layer.md R115). -/
inductive RefusedReason where
  | notOperational
  | reservedOperation
  | badConfigRequest
  | columnOutOfRange
deriving DecidableEq, Repr

/-- What a request returns to the requester (spec/60_exceptions.md R130). -/
inductive Result where
  /-- Success. -/
  | ok
  /-- Success of a bus read, with the bytes read (READ_OPS = enabled only). -/
  | okBytes (bytes : List Byte)
  /-- A transport error, the bus's own (R132). -/
  | err (e : Config.BusError)
  /-- The request is refused (R135). -/
  | refused (reason : RefusedReason)
  /-- The fatal configuration error (R131). -/
  | configError
  /-- The canvas size that `size()` reports (spec/42_driver_layer.md R116). -/
  | canvas (width height : Nat)
deriving DecidableEq, Repr

/-- The state of the machine. -/
structure State where
  /-- BASE, the base address register (spec/10_state.md R21). -/
  base : Byte
  /-- CFG (R23). -/
  cfg : Cfg
  /-- TRACE, the bus operations issued, oldest first (spec/00_scope.md R9). A record: nothing in the block reads
  it. -/
  trace : List BusOp
  /-- The results returned, oldest first (R9). -/
  results : List Result
  /-- DEV_COL, the device's current column, `none` where it is unknown (spec/10_state.md R30;
  spec/70_reset_and_hazards.md R157). Outside the block, which never reads it (log 11). -/
  devCol : Option Byte
  /-- The bytes that reached the device, oldest first (spec/20_memory.md R41, R56). Outside the block (log 10). -/
  received : List Delivery
  /-- The bus write that the transport is carrying, `none` between requests: no write is outstanding when an operation
  returns (R51). The transport's own, outside the block (log 14). -/
  inFlight : Option Transfer
  /-- The packets of the requests still to be presented, the next one first (log 3). -/
  inbox : List (List Byte)
  /-- What the driver call in progress has still to do, the next first; empty between calls
  (spec/42_driver_layer.md R117, R119, R121). The driver layer's, outside the block (log 16, 17). -/
  pending : List Pending
  /-- The transport's answers that are already fixed, the next one first; past the list an answer is free
  (log 8). -/
  answers : List Config.BusAnswer
  /-- How many RESET requests were served: the index of the next free value of BASE (log 5). -/
  resets : Nat
deriving DecidableEq, Repr

/-- The reasons a step can fault. -/
inductive Fault where
  /-- The bus never answers the operation that a request issued, so the request never ends and the block accepts
  nothing further (spec/70_reset_and_hazards.md R159; spec/93_implementation_defined.md U12, "stuck"). Raised by
  every request that issues a bus operation. Safe: the hardware hangs where the model stops. -/
  | busNeverAnswers
deriving DecidableEq, Repr

/-- The reasons a step can be refused. -/
inductive Refusal where
  /-- An instruction without a meaning, by its mnemonic. No arm of `exec` raises it. Safe. -/
  | notModelled (mnemonic : String)
  /-- The packet presented is no request in the model's packed form (log 1). Raised by `step`, never by a meaning.
  Safe: the hardware has no such request. -/
  | undecodable (why : DecodeError)
deriving DecidableEq, Repr

/-- The machine after reset (spec/10_state.md R34): CFG is Unconfigured. BASE holds 0 here, which no source gives
(DESIGN CHOICE, log 4); DEV_COL is unknown (log 11); the records and the inputs are empty (log 3, 8, 19); no bus write
and no driver call is in progress (log 14, 16). -/
def State.reset : State where
  base := 0x00#8
  cfg := .unconfigured
  trace := []
  results := []
  devCol := none
  received := []
  inFlight := none
  inbox := []
  pending := []
  answers := []
  resets := 0

end Sys2Proof.Machine
end

