-- ==== Sys2Proof/Machine/Flags.lean ====
section
/-! DEFINITION. The block has no flags or condition codes (spec/10_state.md R27); the one status it holds is CFG.
This file holds what CFG and BASE are checked for: the tests on CFG (spec/41_commands.md R95;
spec/70_reset_and_hazards.md R154), the validity of a custom base (spec/10_state.md R22), the presets (R32) and the
premise of DEFAULT_BASE (R33). -/

namespace Sys2Proof.Machine

/-- Operation requests are served only in `Operational` (spec/41_commands.md R95). -/
def State.isOperational (s : State) : Bool := decide (s.cfg = .operational)

/-- Configuration requests are accepted only in `Unconfigured` (spec/70_reset_and_hazards.md R154). -/
def State.isUnconfigured (s : State) : Bool := decide (s.cfg = .unconfigured)

/-- A custom base address is valid iff it is below 0x7B, an unsigned comparison on 8 bits (spec/10_state.md R22;
spec/90_conflicts.md C1). -/
def customBaseValid (a : Byte) : Bool := a.ult 0x7B#8

/-- The preset base addresses, in the source's order of values (spec/10_state.md R32). -/
def presetBase : Preset → Byte
  | .A => 0x70#8
  | .B => 0x74#8
  | .C => 0x7C#8
  | .D => 0x78#8

/-- The test of `CONFIG Default` on the constant DEFAULT_BASE: above 0x7C it is outside the premise of
spec/10_state.md R33 (spec/70_reset_and_hazards.md R151). -/
def defaultBaseOutsidePremise (d : Byte) : Bool := (0x7C#8).ult d

end Sys2Proof.Machine
end

