-- ==== Sys2Proof/Machine/Operands.lean ====
section
/-! DEFINITION. Operands and addresses: the register-offset multiplexer and the address adder
(spec/40_offset_mux.md R80 to R86), the payload of each command (spec/30_encoding.md R64 to R66), and the pixel
operand of the driver layer (spec/42_driver_layer.md R117, R118). -/

namespace Sys2Proof.Machine

/-- The register-offset multiplexer: WRITE_COMMAND = 0, READ_STATUS = 1, WRITE_DATA = 2, READ_DATA = 3
(spec/40_offset_mux.md R80; spec/10_state.md R24). -/
def offsetOf : OperationType → BitVec 2
  | .setColumnAddress => 0
  | .readStatus => 1
  | .writeData => 2
  | .readData => 3

/-- The address adder's 8-bit sum of BASE and the selected offset (spec/40_offset_mux.md R85). -/
def addressSum (base : Byte) (t : OperationType) : Byte := base + (offsetOf t).setWidth 8

/-- The effective address: the low 7 bits of the sum (R85). -/
def effectiveAddress (base : Byte) (t : OperationType) : RegAddr := (addressSum base t).setWidth 7

/-- The payload of SetColumnAddress, low nibble first (spec/30_encoding.md R64, R66): SETCOL.LO, then SETCOL.HI. -/
def setColumnPayload (col : Byte) : List Byte :=
  [setcolLoByte (lowNibble col), setcolHiByte (highNibble col)]

/-- The payload of WriteData: the bytes of `data`, unchanged (R65, R66). -/
def writeDataPayload (data : List Byte) : List Byte := data

/-- The width and the height of the canvas (spec/42_driver_layer.md R116). -/
def canvasSize : Nat := 64

/-- Both coordinates of a pixel are in bounds, 0 to 63 (spec/42_driver_layer.md R117, R118). -/
def pixelInBounds (x y : Int) : Bool :=
  decide (0 ≤ x) && decide (x < canvasSize) && decide (0 ≤ y) && decide (y < canvasSize)

end Sys2Proof.Machine
end

