-- ==== Sys2Proof/Machine/Ops.lean ====
section
/-! DEFINITION. The named operations that the meanings are made of: serving a request, the bus primitives MemWrite and
MemRead (spec/00_scope.md R8), the commands (spec/41_commands.md), the configuration load and reset
(spec/70_reset_and_hazards.md), and the fatal configuration error (spec/60_exceptions.md R131). -/

namespace Sys2Proof.Machine

/-! ## Serving a request -/

/-- What serving a request comes to: a result for the requester and the state left, or no end at all
(spec/60_exceptions.md R130; spec/70_reset_and_hazards.md R159). -/
inductive Served where
  | done (r : Result) (s : State)
  | hang
deriving DecidableEq, Repr

/-- A result is returned to the requester: the model records it (spec/00_scope.md R9). -/
def State.record (r : Result) (s : State) : State := { s with results := s.results ++ [r] }

/-- The outcome of the step that served a request: the state with the result recorded; a request that never ends is
a stuck machine (spec/93_implementation_defined.md U12). -/
def Served.outcome : Served → Host.Outcome State Fault Refusal
  | .done r s => .next (s.record r)
  | .hang => .fault .busNeverAnswers

/-- Two requests in a row: the second is made only where the first returned `Ok`; the first other result is the result
of the whole (spec/42_driver_layer.md R120; log 16). -/
def Served.andThen (first : Served) (second : State → Served) : Served :=
  match first with
  | .done .ok s => second (s.record .ok)
  | .done r s => .done r s
  | .hang => .hang

/-! ## The bus -/

/-- The transport's answer to the next bus operation: the first that is listed, or a free one (log 8). -/
def State.nextAnswer (s : State) : Config.BusAnswer :=
  match s.answers with
  | a :: _ => a
  | [] => Config.busAnswer s.trace.length

/-- A bus operation is issued: TRACE gets its entry, whatever the answer (spec/41_commands.md R90), the answer is used
up, and the device's current column is unknown until a column selection succeeds
(spec/70_reset_and_hazards.md R157; log 11). -/
def State.issue (op : BusOp) (s : State) : State :=
  { s with trace := s.trace ++ [op], answers := s.answers.tail, devCol := none }

/-- The transport takes up a bus write: its whole payload is still to travel. -/
def State.startTransfer (reg : RegAddr) (payload : List Byte) (s : State) : State :=
  { s with inFlight := some ⟨reg, payload⟩ }

/-- What the transport holds of a bus write: the write in flight, and what reached the device. -/
abbrev Wire := Option Transfer × List Delivery

/-- One byte travels to a register. It does so only inside the bus write in flight, to that write's register and as the
next byte of its payload (spec/20_memory.md R41, R45); otherwise nothing travels: MemWrite is the only way to the device
(spec/00_scope.md R8), and no byte of a payload goes alone or out of its order (spec/30_encoding.md R68). -/
def carryByte (reg : RegAddr) (b : Byte) : Wire → Wire
  | (some ⟨r, b' :: rest⟩, received) =>
    if r = reg ∧ b' = b then (some ⟨reg, rest⟩, received ++ [⟨reg, b⟩])
    else (some ⟨r, b' :: rest⟩, received)
  | (some ⟨r, []⟩, received) => (some ⟨r, []⟩, received)
  | (none, received) => (none, received)

/-- Bytes travel one after the other. -/
def carryBytes (reg : RegAddr) : List Byte → Wire → Wire
  | [], w => w
  | b :: bs, w => carryBytes reg bs (carryByte reg b w)

/-- Something happens on the transport's side. -/
def State.onWire (f : Wire → Wire) (s : State) : State :=
  { s with inFlight := (f (s.inFlight, s.received)).1, received := (f (s.inFlight, s.received)).2 }

/-- The bus write is over: nothing is outstanding (R51). -/
def State.endTransfer (s : State) : State := { s with inFlight := none }

/-- A bus write of which the first `k` bytes travel. -/
def State.transfer (reg : RegAddr) (payload : List Byte) (k : Nat) (s : State) : State :=
  ((s.startTransfer reg payload).onWire (carryBytes reg (payload.take k))).endTransfer

/-- A column selection succeeded: DEV_COL is known (spec/70_reset_and_hazards.md R157). -/
def State.selectColumn (col : Byte) (s : State) : State := { s with devCol := some col }

/-- The column of the device is unknown (R157). -/
def State.forgetColumn (s : State) : State := { s with devCol := none }

/-- MemWrite (spec/00_scope.md R8): one blocking bus write, attempted once (spec/20_memory.md R52). On `Ok` every byte
is delivered to the one register; on `Err(e)` some prefix is (R56), and `e` is returned as it is
(spec/60_exceptions.md R132). -/
def memWrite (addr : RegAddr) (v : List Byte) (s : State) : Served :=
  match s.nextAnswer with
  | .ok => .done .ok ((s.issue (.write addr v)).transfer addr v v.length)
  | .err e =>
    .done (.err e) ((s.issue (.write addr v)).transfer addr v (Config.deliveredOnError s.trace.length))
  | .never => .hang

/-- The bytes a bus read of `n` bytes returns, each a free value, for the bus operation at index `i` of the TRACE
(spec/41_commands.md R93, R94). -/
def readBytes (i n : Nat) : List Byte := (List.range n).map (Config.readByte i)

/-- MemRead (spec/00_scope.md R8), used only under READ_OPS = enabled. -/
def memRead (addr : RegAddr) (n : Nat) (s : State) : Served :=
  match s.nextAnswer with
  | .ok => .done (.okBytes (readBytes s.trace.length n)) (s.issue (.read addr n))
  | .err e => .done (.err e) (s.issue (.read addr n))
  | .never => .hang

/-! ## Operation requests -/

/-- An operation request is served only while CFG is Operational; otherwise it is refused before anything else is
looked at (spec/41_commands.md R95; spec/60_exceptions.md R138). -/
def whenOperational (s : State) (serve : State → Served) : Served :=
  if s.isOperational then serve s else .done (.refused .notOperational) s

/-- On `Ok` the device's current column is the one selected (spec/41_commands.md R91). -/
def Served.columnSelected (col : Byte) : Served → Served
  | .done .ok s => .done .ok (s.selectColumn col)
  | .done r s => .done r s
  | .hang => .hang

/-- Whatever the result of a WriteData, a refusal too, the device's current column is unknown after it
(spec/70_reset_and_hazards.md R157: "any WriteData (whatever its result)"). -/
def Served.columnForgotten : Served → Served
  | .done r s => .done r s.forgetColumn
  | .hang => .hang

/-- SetColumnAddress: one bus write of the two-byte payload to BASE + WRITE_COMMAND (R91). -/
def serveSetColumnAddress (col : Byte) (s : State) : Served :=
  whenOperational s fun s =>
    (memWrite (effectiveAddress s.base .setColumnAddress) (setColumnPayload col) s).columnSelected col

/-- WriteData: one bus write of `data` to BASE + WRITE_DATA, of any length (R92). -/
def serveWriteData (data : List Byte) (s : State) : Served :=
  (whenOperational s fun s =>
    memWrite (effectiveAddress s.base .writeData) (writeDataPayload data) s).columnForgotten

/-- A reserved read operation under either setting of READ_OPS (R93, R94). -/
def serveRead (ops : Config.ReadOps) (t : OperationType) (count : Nat) (s : State) : Served :=
  whenOperational s fun s =>
    match ops with
    | .refuse => .done (.refused .reservedOperation) s
    | .enabled => memRead (effectiveAddress s.base t) count s

/-- A wire byte on the channel of an operation type: the next byte of the bus write in flight to BASE + offset travels.
It is no request: without such a bus write, and in a block that is not Operational, nothing happens (log 14, 15). -/
def wireByte (t : OperationType) (b : Byte) (s : State) : Host.Outcome State Fault Refusal :=
  .next (if s.isOperational then s.onWire (carryByte (effectiveAddress s.base t) b) else s)

/-! ## Configuration requests -/

/-- A configuration request is accepted only while CFG is Unconfigured (spec/70_reset_and_hazards.md R154). -/
def whenUnconfigured (s : State) (serve : State → Served) : Served :=
  if s.isUnconfigured then serve s else .done (.refused .badConfigRequest) s

/-- The configuration load: BASE is written, then CFG is Operational (R151 to R153). -/
def State.loadBase (b : Byte) (s : State) : State := { s with base := b, cfg := .operational }

/-- ConfigError is raised: CFG is ConfigFault; BASE is not written, nothing is recorded of the cause
(spec/60_exceptions.md R131, R136). There is no other trap entry (R139). -/
def State.raiseConfigError (s : State) : State := { s with cfg := .configFault }

/-- RESET, the only way out of Operational and of ConfigFault: CFG is Unconfigured and BASE holds an unspecified
value, here a free one (spec/70_reset_and_hazards.md R150; log 5). The bus, the device and the records are untouched.
There is no other return from an error (spec/60_exceptions.md R140). -/
def State.resetBlock (s : State) : State :=
  { s with cfg := .unconfigured, base := Config.baseAfterReset s.resets, resets := s.resets + 1 }

/-- CONFIG Default, for a given DEFAULT_BASE: outside the premise of spec/10_state.md R33 it is refused
(spec/70_reset_and_hazards.md R151). -/
def serveConfigDefault (defaultBase : Byte) (s : State) : Served :=
  whenUnconfigured s fun s =>
    if defaultBaseOutsidePremise defaultBase then .done (.refused .badConfigRequest) s
    else .done .ok (s.loadBase defaultBase)

/-- CONFIG Preset(sel): the preset is loaded without a check (R152). -/
def serveConfigPreset (sel : Preset) (s : State) : Served :=
  whenUnconfigured s fun s => .done .ok (s.loadBase (presetBase sel))

/-- CONFIG Custom(addr): a valid address is loaded, an invalid one raises ConfigError (R153). -/
def serveConfigCustom (addr : Byte) (s : State) : Served :=
  whenUnconfigured s fun s =>
    if customBaseValid addr then .done .ok (s.loadBase addr) else .done .configError s.raiseConfigError

/-- A configuration request with the unassigned mode code: refused in every state (R154). -/
def serveConfigUnassigned (s : State) : Served := .done (.refused .badConfigRequest) s

/-! ## The driver layer -/

/-- `set_column_address(column)`: a column above 255 is refused before any request, never truncated
(spec/42_driver_layer.md R115; spec/30_encoding.md R69). -/
def serveSetColumnMethod (column : Nat) (s : State) : Served :=
  if column ≤ 255 then serveSetColumnAddress (BitVec.ofNat 8 column) s
  else .done (.refused .columnOutOfRange) s

/-- What the call in progress does next is put before what it had still to do. -/
def State.await (w : Pending) (s : State) : State := { s with pending := w :: s.pending }

/-- The call in progress ends. -/
def State.dropPending (s : State) : State := { s with pending := [] }

/-- A request of a call, and after its success the next one (spec/42_driver_layer.md R117, R120; log 16). -/
def Served.thenAwait (w : Pending) : Served → Served
  | .done .ok s => .done .ok (s.await w)
  | .done r s => .done r s
  | .hang => .hang

/-- `draw((x, y), luma)`: in bounds, the request that selects the column `x`, after whose success the pixel's data write
is to follow as a request, and a step, of its own (spec/00_scope.md R5); out of bounds, success without any request
(R117, R118, R120). -/
def serveDraw (x y : Int) (luma : Byte) (s : State) : Served :=
  if pixelInBounds x y then
    (serveSetColumnMethod x.toNat s).thenAwait (.dataWrite (Config.pixelEncode x y luma))
  else .done .ok s

/-- The instruction that stands for what a call has still to do: a pixel is drawn, its data are written by the method
`write_data` (R117, R121). -/
def Pending.instr : Pending → Instr
  | .dataWrite bytes => .drvWriteData bytes
  | .pixel p => .drvDraw p.x p.y p.luma

/-- After a request of the call in progress: the first result that is not success ends the call (R120; log 17). -/
def continueCall : Host.Outcome State Fault Refusal → Host.Outcome State Fault Refusal
  | .next s => .next (if s.results.getLast? = some .ok then s else s.dropPending)
  | .fault f => .fault f
  | .refused why => .refused why

/-- The drawing surface presents a sequence of pixels (R119): a call that draws each of them (log 17). -/
def State.presentPixels (ps : List Pixel) (s : State) : State := { s with pending := ps.map .pixel }

/-! ### A call as a whole

What the steps of a call come to in the end: the reading of R117 to R120 in one function. No step runs it. -/

/-- A pixel: in bounds its two requests in order, the second after the success of the first; out of bounds nothing
(R117, R118). -/
def drawPixel (p : Pixel) (s : State) : Served :=
  if pixelInBounds p.x p.y then
    (serveSetColumnMethod p.x.toNat s).andThen (serveWriteData (Config.pixelEncode p.x p.y p.luma))
  else .done .ok s

/-- A sequence of pixels: each on its own, in the order received, without batching, up to the first result that is
not success (R119, R120; log 17). -/
def drawAll : List Pixel → State → Host.Outcome State Fault Refusal
  | [], s => .next s
  | p :: ps, s =>
    match drawPixel p s with
    | .done .ok s' => drawAll ps (s'.record .ok)
    | .done r s' => .next (s'.record r)
    | .hang => .fault .busNeverAnswers

end Sys2Proof.Machine
end

