-- ==== Sys2Proof/Machine/Commands.lean ====
section
/-! DEFINITION. The meanings of the four operation types (spec/41_commands.md R90 to R95). -/

namespace Sys2Proof.Machine

/-- SetColumnAddress (R91). -/
def execSetColumnAddress (col : Byte) (s : State) : Host.Outcome State Fault Refusal :=
  (serveSetColumnAddress col s).outcome

/-- ReadStatus, a reserved operation type: this hardware refuses it (R93; log 12, 13). -/
def execReadStatus (count : Nat) (s : State) : Host.Outcome State Fault Refusal :=
  (serveRead Config.readOps .readStatus count s).outcome

/-- WriteData (R92). -/
def execWriteData (data : List Byte) (s : State) : Host.Outcome State Fault Refusal :=
  (serveWriteData data s).outcome

/-- ReadData, a reserved operation type: this hardware refuses it (R94; log 12, 13). -/
def execReadData (count : Nat) (s : State) : Host.Outcome State Fault Refusal :=
  (serveRead Config.readOps .readData count s).outcome

end Sys2Proof.Machine
end

