-- ==== Sys2Proof/Machine/Configuration.lean ====
section
/-! DEFINITION. The meanings of the configuration requests and of RESET (spec/70_reset_and_hazards.md R150 to
R154). -/

namespace Sys2Proof.Machine

/-- CONFIG Default (R151). -/
def execConfigDefault (s : State) : Host.Outcome State Fault Refusal :=
  (serveConfigDefault Config.defaultBase s).outcome

/-- CONFIG Preset(sel) (R152). -/
def execConfigPreset (sel : Preset) (s : State) : Host.Outcome State Fault Refusal :=
  (serveConfigPreset sel s).outcome

/-- CONFIG Custom(addr) (R153); an invalid address takes ConfigError (spec/60_exceptions.md R131). -/
def execConfigCustom (addr : Byte) (s : State) : Host.Outcome State Fault Refusal :=
  (serveConfigCustom addr s).outcome

/-- The configuration request with the unassigned mode code 0b11: refused, nothing changes (R154; log 12). -/
def execConfigUnassigned (s : State) : Host.Outcome State Fault Refusal :=
  (serveConfigUnassigned s).outcome

/-- RESET: it returns no result (R150). -/
def execReset (s : State) : Host.Outcome State Fault Refusal :=
  .next s.resetBlock

end Sys2Proof.Machine
end

