-- ==== Sys2Proof/Machine/Driver.lean ====
section
/-! DEFINITION. The meanings of the driver layer's pseudo-operations, each the requests it expands to
(spec/42_driver_layer.md R111 to R121). -/

namespace Sys2Proof.Machine

/-- `new(bus)`: RESET; CONFIG Default (R111). -/
def execDrvNew (s : State) : Host.Outcome State Fault Refusal :=
  (serveConfigDefault Config.defaultBase s.resetBlock).outcome

/-- `new_with_address(bus, option)`: RESET; CONFIG Preset(option) (R112). -/
def execDrvNewWithAddress (option : Preset) (s : State) : Host.Outcome State Fault Refusal :=
  (serveConfigPreset option s.resetBlock).outcome

/-- `new_custom_address(bus, address)`: RESET; CONFIG Custom(address) (R113). -/
def execDrvNewCustomAddress (address : Byte) (s : State) : Host.Outcome State Fault Refusal :=
  (serveConfigCustom address s.resetBlock).outcome

/-- `write_data(data)`: the one request WriteData(data) (R114). -/
def execDrvWriteData (data : List Byte) (s : State) : Host.Outcome State Fault Refusal :=
  (serveWriteData data s).outcome

/-- `set_column_address(column)`: the one request SetColumnAddress, or the refusal of a column above 255 (R115). -/
def execDrvSetColumnAddress (column : Nat) (s : State) : Host.Outcome State Fault Refusal :=
  (serveSetColumnMethod column s).outcome

/-- `draw((x, y), luma)` for one pixel: its first request; the second is the next step's (R117, R118, R120; log 16). -/
def execDrvDraw (x y : Int) (luma : Byte) (s : State) : Host.Outcome State Fault Refusal :=
  (serveDraw x y luma s).outcome

/-- `size()`: the constant 64 x 64, whatever the state (R116). -/
def execDrvSize (s : State) : Host.Outcome State Fault Refusal :=
  .next (s.record (.canvas canvasSize canvasSize))

end Sys2Proof.Machine
end

