-- ==== Sys2Proof/Machine/Wire.lean ====
section
/-! DEFINITION. The meanings of the three wire rows: one byte of a bus write on its way to the device
(spec/30_encoding.md R64, R65; spec/20_memory.md R41; log 14). The bytes of a command travel inside its one bus write
(`State.transfer` in `memWrite`) by the same `carryByte`, and no byte travels outside one. -/

namespace Sys2Proof.Machine

/-- SETCOL.LO, 0000llll as the next byte of a bus write to the command channel BASE + 0 (R64). -/
def execSetcolLo (l : Nibble) (s : State) : Host.Outcome State Fault Refusal :=
  wireByte .setColumnAddress (setcolLoByte l) s

/-- SETCOL.HI, 0001hhhh as the next byte of a bus write to the command channel BASE + 0 (R64). -/
def execSetcolHi (h : Nibble) (s : State) : Host.Outcome State Fault Refusal :=
  wireByte .setColumnAddress (setcolHiByte h) s

/-- DATA, the byte unchanged as the next byte of a bus write to the data channel BASE + 2 (R65). -/
def execData (d : Byte) (s : State) : Host.Outcome State Fault Refusal :=
  wireByte .writeData d s

end Sys2Proof.Machine
end

