-- ==== Sys2Proof/Machine/Dispatch.lean ====
section
/-! DEFINITION. The meaning of every instruction: one arm per constructor of Instr. -/

namespace Sys2Proof.Machine

def exec (i : Instr) (s : State) : Host.Outcome State Fault Refusal :=
  match i with
  | .setColumnAddress col => Sys2Proof.Machine.execSetColumnAddress col s
  | .readStatus count => Sys2Proof.Machine.execReadStatus count s
  | .writeData data => Sys2Proof.Machine.execWriteData data s
  | .readData count => Sys2Proof.Machine.execReadData count s
  | .setcolLo l => Sys2Proof.Machine.execSetcolLo l s
  | .setcolHi h => Sys2Proof.Machine.execSetcolHi h s
  | .data d => Sys2Proof.Machine.execData d s
  | .configDefault => Sys2Proof.Machine.execConfigDefault s
  | .configPreset sel => Sys2Proof.Machine.execConfigPreset sel s
  | .configCustom addr => Sys2Proof.Machine.execConfigCustom addr s
  | .configUnassigned => Sys2Proof.Machine.execConfigUnassigned s
  | .reset => Sys2Proof.Machine.execReset s
  | .drvNew => Sys2Proof.Machine.execDrvNew s
  | .drvNewWithAddress option => Sys2Proof.Machine.execDrvNewWithAddress option s
  | .drvNewCustomAddress address => Sys2Proof.Machine.execDrvNewCustomAddress address s
  | .drvWriteData data => Sys2Proof.Machine.execDrvWriteData data s
  | .drvSetColumnAddress column => Sys2Proof.Machine.execDrvSetColumnAddress column s
  | .drvDraw x y luma => Sys2Proof.Machine.execDrvDraw x y luma s
  | .drvSize => Sys2Proof.Machine.execDrvSize s

end Sys2Proof.Machine
end

