-- ==== Sys2Proof/Machine/Step.lean ====
section
/-! DEFINITION. One step of the machine: the next request that the requester presents is served. -/

namespace Sys2Proof.Machine

/-- One step, which serves one request (spec/00_scope.md R5). What the driver call in progress has still to do comes
first, since the driver has exclusive access to the block (spec/60_exceptions.md R143; log 16). There is no program
counter and no fetch (spec/10_state.md R26, spec/41_commands.md R97): the next request is the next packet of the inbox,
gone once it is presented (R25). With nothing presented the block does nothing (log 3). A packet that is no request is refused by name (log 1). -/
def step (s : State) : Host.Outcome State Fault Refusal :=
  match s.pending with
  | w :: rest => continueCall (exec w.instr { s with pending := rest })
  | [] =>
    match s.inbox with
    | [] => .next s
    | p :: rest =>
      match decode p with
      | .ok i => exec i { s with inbox := rest }
      | .error why => .refused (.undecodable why)

/-- The state with a word of the opcode table presented as the next request (log 2, 3). The next request is one of the
inbox only where no driver call is in progress. -/
def State.withFetchWord (s : State) (nbits w : Nat) : State :=
  { s with inbox := tablePacket nbits w :: s.inbox, pending := [] }

end Sys2Proof.Machine
end

