-- ==== Sys2Proof/Safety.lean ====
section
/-! DEFINITION. The terms in which statements speak of good states and good runs. -/

namespace Sys2Proof.Machine

/-- BUS_LIVE for the next bus operation: the transport answers it (spec/70_reset_and_hazards.md R159, D20). -/
def BusLive (s : State) : Prop := s.nextAnswer ≠ .never

/-- In every Operational state the four addresses BASE to BASE + 3 fit the 7-bit space
(spec/20_memory.md R43). -/
def BaseFits (s : State) : Prop := s.cfg = .operational → s.base.toNat ≤ 0x7C

/-- Every bus operation issued is a write (spec/20_memory.md R50, under READ_OPS = refuse). -/
def OnlyWrites (s : State) : Prop := ∀ op ∈ s.trace, ∃ addr payload, op = .write addr payload

/-- Where the device's column is known, the last bus operation was the selection of that column
(spec/70_reset_and_hazards.md R157; log 11). -/
def ColumnFromTrace (s : State) : Prop :=
  ∀ col, s.devCol = some col → ∃ addr, s.trace.getLast? = some (.write addr (setColumnPayload col))

/-- No bus write is outstanding between requests (spec/20_memory.md R51). -/
def NothingOutstanding (s : State) : Prop := s.inFlight = none

/-- The invariant of the machine. -/
def MachineInvariant (s : State) : Prop :=
  BaseFits s ∧ OnlyWrites s ∧ ColumnFromTrace s ∧ NothingOutstanding s

/-- The instructions that contain a RESET: RESET itself and the driver's three constructors
(spec/42_driver_layer.md R110 to R113). -/
def resetsBlock : Instr → Bool
  | .setColumnAddress _ => false
  | .readStatus _ => false
  | .writeData _ => false
  | .readData _ => false
  | .setcolLo _ => false
  | .setcolHi _ => false
  | .data _ => false
  | .configDefault => false
  | .configPreset _ => false
  | .configCustom _ => false
  | .configUnassigned => false
  | .reset => true
  | .drvNew => true
  | .drvNewWithAddress _ => true
  | .drvNewCustomAddress _ => true
  | .drvWriteData _ => false
  | .drvSetColumnAddress _ => false
  | .drvDraw _ _ _ => false
  | .drvSize => false

/-- No packet still to be presented decodes to an instruction that contains a RESET. (A driver call in progress has none
left: `Pending` holds pixels and data writes only.) -/
def NoResetAhead (s : State) : Prop := ∀ p ∈ s.inbox, ∀ i, decode p = .ok i → resetsBlock i = false

/-- A bus operation that a block with this BASE can issue: a column pair to BASE, or any payload to BASE + 2
(spec/30_encoding.md R71). -/
def OnChannels (base : Byte) (op : BusOp) : Prop :=
  (∃ lo hi : Nibble, op = .write (base.setWidth 7) [lo.setWidth 8, 0x10#8 ||| hi.setWidth 8]) ∨
  (∃ payload, op = .write ((base + 2#8).setWidth 7) payload)

/-- Instructions served one after the other, up to the first stop. -/
def execAll : List Instr → State → Host.Outcome State Fault Refusal
  | [], s => .next s
  | i :: is, s =>
    match exec i s with
    | .next s' => execAll is s'
    | .fault f => .fault f
    | .refused r => .refused r

/-- The bus operations of one pixel whose requests both succeed: the column pair of `x` to BASE, then PIXEL_ENCODE to
BASE + 2; none out of bounds (spec/42_driver_layer.md R117, R118). -/
def pixelOperations (base : Byte) (p : Pixel) : List BusOp :=
  if 0 ≤ p.x ∧ p.x < 64 ∧ 0 ≤ p.y ∧ p.y < 64 then
    [.write (base.setWidth 7) [BitVec.ofNat 8 p.x.toNat &&& 0x0F#8, 0x10#8 ||| (BitVec.ofNat 8 p.x.toNat >>> 4)],
     .write ((base + 2#8).setWidth 7) (Config.pixelEncode p.x p.y p.luma)]
  else []

/-- How many bus operations serving an instruction can issue on this hardware: one for a command, for a method and for
a pixel, whose data write is a request of its own (spec/00_scope.md R5), none otherwise (spec/41_commands.md R90;
spec/42_driver_layer.md R117). A wire row is a byte inside a bus operation and none itself (log 14). -/
def busOperations : Instr → Nat
  | .setColumnAddress _ => 1
  | .readStatus _ => 0
  | .writeData _ => 1
  | .readData _ => 0
  | .setcolLo _ => 0
  | .setcolHi _ => 0
  | .data _ => 0
  | .configDefault => 0
  | .configPreset _ => 0
  | .configCustom _ => 0
  | .configUnassigned => 0
  | .reset => 0
  | .drvNew => 0
  | .drvNewWithAddress _ => 0
  | .drvNewCustomAddress _ => 0
  | .drvWriteData _ => 1
  | .drvSetColumnAddress _ => 1
  | .drvDraw _ _ _ => 1
  | .drvSize => 0

end Sys2Proof.Machine
end

