-- ==== Sys2Proof/Certificates/Slice0/Obligations.lean ====
section
/-! DEFINITION. The statements for the provers. The title of each, the rule of spec/ it formalises and its tier stand in
OBLIGATIONS.json under the same name.

A record update `{ s with … }` names every field that changes, so each such equation is also the frame of the
instruction: every field it does not name is unchanged. Where a field is the model's own (`answers`, `resets`), the
statement leaves its new value existential or says what the model does with it without claiming a rule for it. -/

open Sys2Proof Sys2Proof.Machine

/-! ## Encodings, multiplexer, constants -/

/-- spec/40_offset_mux.md R80. -/
def Obligations.MultiplexerSelectsTheFourOffsets : Prop :=
  offsetOf .setColumnAddress = 0#2 ∧ offsetOf .readStatus = 1#2 ∧ offsetOf .writeData = 2#2 ∧
    offsetOf .readData = 3#2 ∧ Function.Bijective offsetOf

/-- spec/40_offset_mux.md R85 with spec/20_memory.md R43: in every Operational state whose BASE fits, the address is the
exact sum of BASE and the offset and no bit is lost. -/
def Obligations.EffectiveAddressIsTheExactSum : Prop :=
  ∀ (s : State) (op : OperationType), BaseFits s → s.cfg = .operational →
    (addressSum s.base op).toNat = s.base.toNat + (offsetOf op).toNat ∧
    (addressSum s.base op).toNat ≤ 0x7F ∧
    (effectiveAddress s.base op).toNat = s.base.toNat + (offsetOf op).toNat

/-- spec/30_encoding.md R66. -/
def Obligations.OperandAssemblyOfTheCommands : Prop :=
  (∀ col : Byte,
    setColumnPayload col =
      [(col.extractLsb' 0 4).setWidth 8, 0x10#8 ||| (col.extractLsb' 4 4).setWidth 8] ∧
    setColumnPayload col = [col &&& 0x0F#8, 0x10#8 ||| (col >>> 4)] ∧
    setColumnPayload col = [col &&& 0x0F#8, (col >>> 4) + 0x10#8]) ∧
  (∀ data : List Byte, writeDataPayload data = data)

/-- spec/30_encoding.md R67. -/
def Obligations.ColumnEncodingIsInvertible : Prop :=
  (∀ c d : Byte, setColumnPayload c = setColumnPayload d → c = d) ∧
  (∀ bytes : List Byte, (∃ c, setColumnPayload c = bytes) ↔
    ∃ b0 b1 : Byte, bytes = [b0, b1] ∧ b0.toNat ≤ 0x0F ∧ 0x10 ≤ b1.toNat ∧ b1.toNat ≤ 0x1F) ∧
  (∀ c b0 b1 : Byte, setColumnPayload c = [b0, b1] →
    c = (((b1 &&& 0x0F#8) <<< 4) ||| (b0 &&& 0x0F#8)) ∧ b0.getLsbD 4 = false ∧ b1.getLsbD 4 = true)

/-- spec/10_state.md R22: the custom path loads exactly the addresses below 0x7B. -/
def Obligations.CustomBaseIsValidBelow7B : Prop :=
  (∀ a : Byte, customBaseValid a = true ↔ a.toNat < 0x7B) ∧
  (∀ a : Byte, customBaseValid a = true → a.getLsbD 7 = false ∧ a.toNat + 3 ≤ 0x7D) ∧
  ((List.range 256).filter (fun n => !customBaseValid (BitVec.ofNat 8 n))).length = 133 ∧
  (∀ (a : Byte) (s : State), s.cfg = .unconfigured →
    ((∃ t, exec (.configCustom a) s = .next t ∧ t.cfg = .operational ∧ t.base = a) ↔ a.toNat < 0x7B))

/-- spec/10_state.md R32: the four presets, in the source's order, and that they are loaded without the custom
check, which preset C would fail. -/
def Obligations.PresetBasesAreLoadedUnchecked : Prop :=
  presetBase .A = 0x70#8 ∧ presetBase .B = 0x74#8 ∧ presetBase .C = 0x7C#8 ∧ presetBase .D = 0x78#8 ∧
  customBaseValid (presetBase .C) = false ∧
  ∀ (p : Preset) (s : State), s.cfg = .unconfigured →
    ∃ t, exec (.configPreset p) s = .next t ∧ t.base = presetBase p ∧ t.cfg = .operational

/-! ## Commands -/

/-- spec/41_commands.md R91, with the deliveries of spec/20_memory.md R41 and R56, and no write outstanding afterwards
(R51). The new value of `answers` is the model's own (log 8) and is left existential. -/
def Obligations.SetColumnAddressWritesOnePair : Prop :=
  ∀ (col : Byte) (s : State),
    let addr : RegAddr := (s.base + 0#8).setWidth 7
    let pair : List Byte := [col &&& 0x0F#8, 0x10#8 ||| (col >>> 4)]
    (s.cfg ≠ .operational →
      exec (.setColumnAddress col) s = .next { s with results := s.results ++ [.refused .notOperational] }) ∧
    (s.cfg = .operational → s.nextAnswer = .ok →
      ∃ rest, exec (.setColumnAddress col) s = .next { s with
        trace := s.trace ++ [.write addr pair], results := s.results ++ [.ok], devCol := some col,
        received := s.received ++ pair.map (fun b => ⟨addr, b⟩), inFlight := none, answers := rest }) ∧
    (∀ e, s.cfg = .operational → s.nextAnswer = .err e →
      ∃ k rest, exec (.setColumnAddress col) s = .next { s with
        trace := s.trace ++ [.write addr pair], results := s.results ++ [.err e], devCol := none,
        received := s.received ++ (pair.take k).map (fun b => ⟨addr, b⟩), inFlight := none, answers := rest })

/-- spec/41_commands.md R92, with the deliveries of spec/20_memory.md R41 and R56, no write outstanding afterwards (R51),
and the device's column unknown after any WriteData, whatever its result (spec/70_reset_and_hazards.md R157). -/
def Obligations.WriteDataForwardsItsBytes : Prop :=
  ∀ (data : List Byte) (s : State),
    let addr : RegAddr := (s.base + 2#8).setWidth 7
    (s.cfg ≠ .operational →
      exec (.writeData data) s =
        .next { s with results := s.results ++ [.refused .notOperational], devCol := none }) ∧
    (s.cfg = .operational → s.nextAnswer = .ok →
      ∃ rest, exec (.writeData data) s = .next { s with
        trace := s.trace ++ [.write addr data], results := s.results ++ [.ok], devCol := none,
        received := s.received ++ data.map (fun b => ⟨addr, b⟩), inFlight := none, answers := rest }) ∧
    (∀ e, s.cfg = .operational → s.nextAnswer = .err e →
      ∃ k rest, exec (.writeData data) s = .next { s with
        trace := s.trace ++ [.write addr data], results := s.results ++ [.err e], devCol := none,
        received := s.received ++ (data.take k).map (fun b => ⟨addr, b⟩), inFlight := none, answers := rest })

/-- spec/41_commands.md R93, both settings of READ_OPS: `exec` is this hardware's setting, `serveRead .enabled` the other.
The device's column after an enabled read is left open. -/
def Obligations.ReadStatusIsReserved : Prop :=
  ∀ (count : Nat) (s : State),
    let addr : RegAddr := (s.base + 1#8).setWidth 7
    (s.cfg = .operational →
      exec (.readStatus count) s = .next { s with results := s.results ++ [.refused .reservedOperation] }) ∧
    (s.cfg ≠ .operational →
      exec (.readStatus count) s = .next { s with results := s.results ++ [.refused .notOperational] } ∧
      serveRead .enabled .readStatus count s = .done (.refused .notOperational) s) ∧
    (s.cfg = .operational → s.nextAnswer = .ok →
      ∃ bytes col rest, bytes.length = count ∧ serveRead .enabled .readStatus count s =
        .done (.okBytes bytes) { s with trace := s.trace ++ [.read addr count], devCol := col, answers := rest }) ∧
    (∀ e, s.cfg = .operational → s.nextAnswer = .err e →
      ∃ col rest, serveRead .enabled .readStatus count s =
        .done (.err e) { s with trace := s.trace ++ [.read addr count], devCol := col, answers := rest })

/-- spec/41_commands.md R94, both settings of READ_OPS. -/
def Obligations.ReadDataIsReserved : Prop :=
  ∀ (count : Nat) (s : State),
    let addr : RegAddr := (s.base + 3#8).setWidth 7
    (s.cfg = .operational →
      exec (.readData count) s = .next { s with results := s.results ++ [.refused .reservedOperation] }) ∧
    (s.cfg ≠ .operational →
      exec (.readData count) s = .next { s with results := s.results ++ [.refused .notOperational] } ∧
      serveRead .enabled .readData count s = .done (.refused .notOperational) s) ∧
    (s.cfg = .operational → s.nextAnswer = .ok →
      ∃ bytes col rest, bytes.length = count ∧ serveRead .enabled .readData count s =
        .done (.okBytes bytes) { s with trace := s.trace ++ [.read addr count], devCol := col, answers := rest }) ∧
    (∀ e, s.cfg = .operational → s.nextAnswer = .err e →
      ∃ col rest, serveRead .enabled .readData count s =
        .done (.err e) { s with trace := s.trace ++ [.read addr count], devCol := col, answers := rest })

/-- spec/41_commands.md R95, for the four operation types: BASE, CFG, TRACE and the device's bytes stay as they are. A
refused WriteData leaves the device's column unknown (spec/70_reset_and_hazards.md R157), the others leave it alone. -/
def Obligations.OperationsAreRefusedUnlessOperational : Prop :=
  ∀ (col : Byte) (data : List Byte) (n : Nat) (s : State), s.cfg ≠ .operational →
    (∀ i ∈ [Instr.setColumnAddress col, .readStatus n, .readData n],
      exec i s = .next { s with results := s.results ++ [.refused .notOperational] }) ∧
    exec (.writeData data) s = .next { s with results := s.results ++ [.refused .notOperational], devCol := none }

/-- spec/41_commands.md R95, spec/60_exceptions.md R131 and spec/70_reset_and_hazards.md R151 to R153: of ALL
instructions, none reaches the bus from a block that is not Operational. The device's column too stays what it is, but
for a WriteData, whose every result makes it unknown (R157). -/
def Obligations.NothingReachesTheBusUnlessOperational : Prop :=
  ∀ (i : Instr) (s t : State), s.cfg ≠ .operational → exec i s = .next t →
    t.trace = s.trace ∧ t.received = s.received ∧ t.answers = s.answers ∧ t.inFlight = s.inFlight ∧
    ((∀ data, i ≠ .writeData data ∧ i ≠ .drvWriteData data) → t.devCol = s.devCol) ∧
    ((∃ data, i = .writeData data ∨ i = .drvWriteData data) → t.devCol = none)

/-- spec/41_commands.md R90 and spec/30_encoding.md R71: every instruction only adds to the TRACE, at most as many
operations as it stands for, each a column pair to BASE or a payload to BASE + 2. That a wire row (SETCOL.LO, SETCOL.HI,
DATA) counts as 0 and adds nothing is the MODEL'S CHOICE (log 14); that the data write of a draw is counted at the step
that makes it, and not at the draw, is log 16. -/
def Obligations.EveryInstructionKeepsToItsChannels : Prop :=
  ∀ (i : Instr) (s t : State), exec i s = .next t →
    ∃ new, t.trace = s.trace ++ new ∧ new.length ≤ busOperations i ∧ ∀ op ∈ new, OnChannels s.base op

/-- spec/10_state.md R20: the bus operations produced for a request are a function of the request, BASE and CFG alone:
two states that agree in those two may differ in everything else. (A draw is here its first request; its data write is
an instruction of its own.) -/
def Obligations.BusOperationsDependOnBaseAndCfgAlone : Prop :=
  ∀ (i : Instr) (s₁ s₂ t₁ t₂ : State), s₁.base = s₂.base → s₁.cfg = s₂.cfg →
    exec i s₁ = .next t₁ → exec i s₂ = .next t₂ →
    ∃ new, t₁.trace = s₁.trace ++ new ∧ t₂.trace = s₂.trace ++ new

/-- spec/70_reset_and_hazards.md R159 and spec/93_implementation_defined.md U12: where the transport never answers, a
request does not end, and nothing else stops any meaning: every instruction in every state goes on or meets that, and it
meets it wherever it puts an operation on the bus. The fault stands for the hang (log 23). Of the step, which adds the
decoding (log 1) and the driver call in progress (log 16), the same. -/
def Obligations.AnUnansweredBusIsTheOnlyStop : Prop :=
  (∀ (i : Instr) (s : State), (∃ t, exec i s = .next t) ∨
    (exec i s = .fault .busNeverAnswers ∧ s.cfg = .operational ∧ s.nextAnswer = .never ∧ busOperations i = 1)) ∧
  (∀ (col : Byte) (data : List Byte) (n : Nat) (x y : Int) (luma : Byte) (s : State),
    s.cfg = .operational → s.nextAnswer = .never → n ≤ 255 → 0 ≤ x → x ≤ 63 → 0 ≤ y → y ≤ 63 →
    ∀ i ∈ [Instr.setColumnAddress col, .writeData data, .drvWriteData data, .drvSetColumnAddress n, .drvDraw x y luma],
      exec i s = .fault .busNeverAnswers) ∧
  (∀ (data : List Byte) (rest : List Pending) (s : State), s.pending = .dataWrite data :: rest →
    s.cfg = .operational → s.nextAnswer = .never → step s = .fault .busNeverAnswers) ∧
  (∀ s : State, s.pending ≠ [] → s.cfg ≠ .operational ∨ BusLive s → ∃ t, step s = .next t) ∧
  (∀ (s : State) (f : Fault), step s = .fault f → s.cfg = .operational ∧ s.nextAnswer = .never) ∧
  (∀ (s : State) (why : Refusal), step s = .refused why →
    s.pending = [] ∧ ∃ p rest e, s.inbox = p :: rest ∧ decode p = .error e ∧ why = .undecodable e)

/-! ## Wire bytes -/

/-- spec/30_encoding.md R64, R65 and R68, spec/20_memory.md R41 and R45, spec/00_scope.md R8: the byte of a wire row
reaches its channel as the next byte of a bus write to that channel in flight, and in no other way: without such a bus
write, for another byte or another channel, or in a block that is not Operational, the row changes nothing. That a row
is an event of its own at all is the MODEL'S CHOICE (log 14, log 15). -/
def Obligations.WireBytesReachTheirChannel : Prop :=
  ∀ (l h : Nibble) (d : Byte) (s : State),
    let command : RegAddr := (s.base + 0#8).setWidth 7
    let data : RegAddr := (s.base + 2#8).setWidth 7
    (∀ rest, s.cfg = .operational → s.inFlight = some ⟨command, (0#4 ++ l) :: rest⟩ →
      exec (.setcolLo l) s = .next { s with
        received := s.received ++ [⟨command, 0#4 ++ l⟩], inFlight := some ⟨command, rest⟩ }) ∧
    (∀ rest, s.cfg = .operational → s.inFlight = some ⟨command, (1#4 ++ h) :: rest⟩ →
      exec (.setcolHi h) s = .next { s with
        received := s.received ++ [⟨command, 1#4 ++ h⟩], inFlight := some ⟨command, rest⟩ }) ∧
    (∀ rest, s.cfg = .operational → s.inFlight = some ⟨data, d :: rest⟩ →
      exec (.data d) s = .next { s with
        received := s.received ++ [⟨data, d⟩], inFlight := some ⟨data, rest⟩ }) ∧
    ((s.cfg ≠ .operational ∨ ∀ rest, s.inFlight ≠ some ⟨command, (0#4 ++ l) :: rest⟩) →
      exec (.setcolLo l) s = .next s) ∧
    ((s.cfg ≠ .operational ∨ ∀ rest, s.inFlight ≠ some ⟨command, (1#4 ++ h) :: rest⟩) →
      exec (.setcolHi h) s = .next s) ∧
    ((s.cfg ≠ .operational ∨ ∀ rest, s.inFlight ≠ some ⟨data, d :: rest⟩) →
      exec (.data d) s = .next s)

/-- The column `emits` of spec/opcode_table.json, with spec/30_encoding.md R64, R65 and R68: what a successful command
delivers is what its wire rows deliver one after the other in its one bus write, after which no byte of that write is
left; of a column pair the second half does not travel first. The wire rows' own meaning is the MODEL'S CHOICE
(log 14). -/
def Obligations.CommandsDeliverTheirWireBytes : Prop :=
  (∀ (col : Byte) (s : State), s.cfg = .operational → s.nextAnswer = .ok →
    let addr : RegAddr := (s.base + 0#8).setWidth 7
    let writing : State := { s with inFlight := some ⟨addr, [col &&& 0x0F#8, 0x10#8 ||| (col >>> 4)]⟩ }
    ∃ t t', exec (.setColumnAddress col) s = .next t ∧
      execAll [.setcolLo (col.extractLsb' 0 4), .setcolHi (col.extractLsb' 4 4)] writing = .next t' ∧
      t.received = t'.received ∧ t'.inFlight = some ⟨addr, []⟩ ∧
      exec (.setcolHi (col.extractLsb' 4 4)) writing = .next writing) ∧
  (∀ (data : List Byte) (s : State), s.cfg = .operational → s.nextAnswer = .ok →
    let addr : RegAddr := (s.base + 2#8).setWidth 7
    ∃ t t', exec (.writeData data) s = .next t ∧
      execAll (data.map Instr.data) { s with inFlight := some ⟨addr, data⟩ } = .next t' ∧
      t.received = t'.received ∧ t'.inFlight = some ⟨addr, []⟩)

/-! ## Configuration and reset -/

/-- spec/70_reset_and_hazards.md R151: the request of this hardware, and the load for any DEFAULT_BASE, within the premise
of spec/10_state.md R33 or outside it. That this hardware's own DEFAULT_BASE is within the premise is the MODEL'S CHOICE
(log 6). -/
def Obligations.ConfigDefaultLoadsDefaultBase : Prop :=
  (∀ s : State, s.cfg = .unconfigured →
    exec .configDefault s = .next { s with
      base := Config.defaultBase, cfg := .operational, results := s.results ++ [.ok] }) ∧
  (∀ s : State, s.cfg ≠ .unconfigured →
    exec .configDefault s = .next { s with results := s.results ++ [.refused .badConfigRequest] }) ∧
  (∀ (d : Byte) (s : State), s.cfg = .unconfigured → d.toNat ≤ 0x7C →
    serveConfigDefault d s = .done .ok { s with base := d, cfg := .operational }) ∧
  (∀ (d : Byte) (s : State), s.cfg ≠ .unconfigured ∨ 0x7C < d.toNat →
    serveConfigDefault d s = .done (.refused .badConfigRequest) s)

/-- spec/70_reset_and_hazards.md R152. -/
def Obligations.ConfigPresetLoadsItsBase : Prop :=
  (∀ s : State, s.cfg = .unconfigured →
    exec (.configPreset .A) s = .next { s with base := 0x70#8, cfg := .operational, results := s.results ++ [.ok] } ∧
    exec (.configPreset .B) s = .next { s with base := 0x74#8, cfg := .operational, results := s.results ++ [.ok] } ∧
    exec (.configPreset .C) s = .next { s with base := 0x7C#8, cfg := .operational, results := s.results ++ [.ok] } ∧
    exec (.configPreset .D) s = .next { s with base := 0x78#8, cfg := .operational, results := s.results ++ [.ok] }) ∧
  (∀ (p : Preset) (s : State), s.cfg ≠ .unconfigured →
    exec (.configPreset p) s = .next { s with results := s.results ++ [.refused .badConfigRequest] })

/-- spec/70_reset_and_hazards.md R153. -/
def Obligations.ConfigCustomLoadsOrFaults : Prop :=
  ∀ (a : Byte) (s : State),
    (s.cfg = .unconfigured → a.toNat < 0x7B →
      exec (.configCustom a) s = .next { s with base := a, cfg := .operational, results := s.results ++ [.ok] }) ∧
    (s.cfg = .unconfigured → 0x7B ≤ a.toNat →
      exec (.configCustom a) s = .next { s with cfg := .configFault, results := s.results ++ [.configError] }) ∧
    (s.cfg ≠ .unconfigured →
      exec (.configCustom a) s = .next { s with results := s.results ++ [.refused .badConfigRequest] })

/-- spec/70_reset_and_hazards.md R154: one load per reset, the unassigned mode code refused in every state without using
up the load, and BASE constant for as long as the block is Operational. -/
def Obligations.OneConfigurationLoadPerReset : Prop :=
  (∀ (p : Preset) (a : Byte) (s : State), s.cfg ≠ .unconfigured →
    ∀ i ∈ [Instr.configDefault, .configPreset p, .configCustom a],
      exec i s = .next { s with results := s.results ++ [.refused .badConfigRequest] }) ∧
  (∀ s : State, exec .configUnassigned s =
    .next { s with results := s.results ++ [.refused .badConfigRequest] }) ∧
  (∀ (i : Instr) (s t : State), s.cfg = .operational → resetsBlock i = false → exec i s = .next t →
    t.base = s.base ∧ t.cfg = .operational)

/-- spec/60_exceptions.md R131: what ConfigError does, and that only a custom configuration raises it. -/
def Obligations.ConfigErrorComesFromCustomOnly : Prop :=
  (∀ (a : Byte) (s : State), s.cfg = .unconfigured → 0x7B ≤ a.toNat →
    exec (.configCustom a) s = .next { s with cfg := .configFault, results := s.results ++ [.configError] }) ∧
  (∀ (i : Instr) (s t : State), exec i s = .next t → t.cfg = .configFault → s.cfg ≠ .configFault →
    ∃ a : Byte, 0x7B ≤ a.toNat ∧ (i = .configCustom a ∨ i = .drvNewCustomAddress a))

/-- spec/70_reset_and_hazards.md R150: RESET's effect (the value left in BASE and the model's counter `resets` are
existential), and that nothing without a RESET leaves Operational or ConfigFault. -/
def Obligations.ResetIsTheOnlyWayOut : Prop :=
  (∀ s : State, ∃ b n, exec .reset s = .next { s with cfg := .unconfigured, base := b, resets := n }) ∧
  (∀ (i : Instr) (s t : State), s.cfg ≠ .unconfigured → exec i s = .next t → resetsBlock i = false →
    t.cfg = s.cfg)

/-- spec/10_state.md R21: BASE changes only by one of the three configuration loads, from Unconfigured to Operational and
to the value that load gives it, or where a RESET leaves it unspecified. -/
def Obligations.BaseIsWrittenByLoadsOnly : Prop :=
  ∀ (i : Instr) (s t : State), exec i s = .next t → t.base ≠ s.base →
    resetsBlock i = true ∨
    (s.cfg = .unconfigured ∧ t.cfg = .operational ∧
      ((i = .configDefault ∧ t.base = Config.defaultBase) ∨
        (∃ p, i = .configPreset p ∧ t.base = presetBase p) ∨
        (∃ a, i = .configCustom a ∧ a.toNat < 0x7B ∧ t.base = a)))

/-- spec/10_state.md R34: nothing can read BASE before a configuration load succeeds. Two states that differ in BASE alone,
not Operational, are left by every instruction in states that differ in BASE at most, and not even in BASE where the
instruction makes the block Operational. -/
def Obligations.BaseIsUnreadableUntilLoaded : Prop :=
  ∀ (i : Instr) (s t : State) (b : Byte), s.cfg ≠ .operational → exec i s = .next t →
    ∃ b', exec i { s with base := b } = .next { t with base := b' } ∧ (t.cfg = .operational → b' = t.base)

/-- spec/10_state.md R34: the state after reset (BASE is the model's choice, log 4, and is not stated). -/
def Obligations.ResetStateIsUnconfigured : Prop :=
  State.reset.cfg = .unconfigured ∧ State.reset.devCol = none ∧
  ∀ (col : Byte) (data : List Byte) (n : Nat),
    ∀ i ∈ [Instr.setColumnAddress col, .readStatus n, .writeData data, .readData n],
      ∃ t, exec i State.reset = .next t ∧ t.trace = [] ∧ t.results = [.refused .notOperational]

/-! ## The driver layer -/

/-- spec/42_driver_layer.md R111; DEFAULT_BASE within its premise (log 6); a constructor is one step (log 24). -/
def Obligations.NewLoadsTheDefaultBase : Prop :=
  ∀ s : State, ∃ n, exec .drvNew s = .next { s with
    base := Config.defaultBase, cfg := .operational, results := s.results ++ [.ok], resets := n }

/-- spec/42_driver_layer.md R112; a constructor is one step (log 24). -/
def Obligations.NewWithAddressLoadsAPreset : Prop :=
  ∀ s : State,
    (∃ n, exec (.drvNewWithAddress .A) s = .next { s with
      base := 0x70#8, cfg := .operational, results := s.results ++ [.ok], resets := n }) ∧
    (∃ n, exec (.drvNewWithAddress .B) s = .next { s with
      base := 0x74#8, cfg := .operational, results := s.results ++ [.ok], resets := n }) ∧
    (∃ n, exec (.drvNewWithAddress .C) s = .next { s with
      base := 0x7C#8, cfg := .operational, results := s.results ++ [.ok], resets := n }) ∧
    (∃ n, exec (.drvNewWithAddress .D) s = .next { s with
      base := 0x78#8, cfg := .operational, results := s.results ++ [.ok], resets := n })

/-- spec/42_driver_layer.md R113; a constructor is one step (log 24). -/
def Obligations.NewCustomAddressChecksTheBase : Prop :=
  ∀ (a : Byte) (s : State),
    (a.toNat < 0x7B → ∃ n, exec (.drvNewCustomAddress a) s = .next { s with
      base := a, cfg := .operational, results := s.results ++ [.ok], resets := n }) ∧
    (0x7B ≤ a.toNat → ∃ b n, exec (.drvNewCustomAddress a) s = .next { s with
      base := b, cfg := .configFault, results := s.results ++ [.configError], resets := n })

/-- spec/42_driver_layer.md R114: the method is the one request, and on a live bus it returns the bus's answer. -/
def Obligations.WriteDataMethodDelegates : Prop :=
  ∀ (data : List Byte) (s : State),
    exec (.drvWriteData data) s = exec (.writeData data) s ∧
    (s.cfg = .operational → s.nextAnswer = .ok → ∃ rest, exec (.drvWriteData data) s = .next { s with
      trace := s.trace ++ [.write ((s.base + 2#8).setWidth 7) data], results := s.results ++ [.ok], devCol := none,
      received := s.received ++ data.map (fun b => ⟨(s.base + 2#8).setWidth 7, b⟩), inFlight := none,
      answers := rest }) ∧
    (∀ e, s.cfg = .operational → s.nextAnswer = .err e →
      ∃ t, exec (.drvWriteData data) s = .next t ∧ t.results = s.results ++ [.err e])

/-- spec/42_driver_layer.md R115: a column of at most 255 is the one request; a larger one is refused before any request
and never truncated. -/
def Obligations.SetColumnMethodNeverTruncates : Prop :=
  ∀ (n : Nat) (s : State),
    (n ≤ 255 → exec (.drvSetColumnAddress n) s = exec (.setColumnAddress (BitVec.ofNat 8 n)) s) ∧
    (n ≤ 255 → s.cfg = .operational → s.nextAnswer = .ok →
      ∃ t, exec (.drvSetColumnAddress n) s = .next t ∧ t.devCol = some (BitVec.ofNat 8 n) ∧
        t.results = s.results ++ [.ok] ∧
        t.trace = s.trace ++ [.write ((s.base + 0#8).setWidth 7)
          [BitVec.ofNat 8 (n % 16), BitVec.ofNat 8 (16 + n / 16)]]) ∧
    (256 ≤ n → exec (.drvSetColumnAddress n) s =
      .next { s with results := s.results ++ [.refused .columnOutOfRange] })

/-- spec/42_driver_layer.md R116. -/
def Obligations.SizeIsAlways64By64 : Prop :=
  ∀ s : State, exec .drvSize s = .next { s with results := s.results ++ [.canvas 64 64] }

/-- spec/42_driver_layer.md R117 with spec/00_scope.md R5: in bounds, the column is selected and then the data written, in
that order, each in a step of its own (log 16). The first clause is the draw's own step where its request succeeds, with
its frame; the second the two steps of a draw that is presented, with the state in between, where both requests succeed;
the third says that a data write that never ends takes nothing back of the column selection before it. -/
def Obligations.DrawSelectsTheColumnThenWrites : Prop :=
  ∀ (x y : Int) (luma : Byte) (s : State), 0 ≤ x → x ≤ 63 → 0 ≤ y → y ≤ 63 → s.cfg = .operational →
    let command : RegAddr := (s.base + 0#8).setWidth 7
    let data : RegAddr := (s.base + 2#8).setWidth 7
    let pair : List Byte := [BitVec.ofInt 8 (x % 16), BitVec.ofInt 8 (16 + x / 16)]
    let bytes : List Byte := Config.pixelEncode x y luma
    (s.nextAnswer = .ok → ∃ rest, exec (.drvDraw x y luma) s = .next { s with
      trace := s.trace ++ [.write command pair], results := s.results ++ [.ok],
      devCol := some (BitVec.ofInt 8 x), received := s.received ++ pair.map (fun b => ⟨command, b⟩),
      inFlight := none, answers := rest, pending := .dataWrite bytes :: s.pending }) ∧
    (∀ p inbox rest, s.pending = [] → s.inbox = p :: inbox → decode p = .ok (.drvDraw x y luma) →
      s.answers = .ok :: .ok :: rest →
      step s = .next { s with
        trace := s.trace ++ [.write command pair], results := s.results ++ [.ok],
        devCol := some (BitVec.ofInt 8 x), received := s.received ++ pair.map (fun b => ⟨command, b⟩),
        inFlight := none, inbox := inbox, answers := .ok :: rest, pending := [.dataWrite bytes] } ∧
      Sys2Proof.core.run 2 s = .next { s with
        trace := s.trace ++ [.write command pair, .write data bytes], results := s.results ++ [.ok, .ok],
        devCol := none,
        received := s.received ++ (pair.map (fun b => ⟨command, b⟩) ++ bytes.map (fun b => ⟨data, b⟩)),
        inFlight := none, inbox := inbox, answers := rest, pending := [] }) ∧
    (∀ p inbox rest, s.pending = [] → s.inbox = p :: inbox → decode p = .ok (.drvDraw x y luma) →
      s.answers = .ok :: .never :: rest →
      (∃ t, step s = .next t ∧ t.trace = s.trace ++ [.write command pair] ∧ t.results = s.results ++ [.ok] ∧
        t.received = s.received ++ pair.map (fun b => ⟨command, b⟩)) ∧
      Sys2Proof.core.run 2 s = .fault .busNeverAnswers)

/-- spec/42_driver_layer.md R118. -/
def Obligations.DrawOutOfBoundsDoesNothing : Prop :=
  ∀ (x y : Int) (luma : Byte) (s : State), x < 0 ∨ 64 ≤ x ∨ y < 0 ∨ 64 ≤ y →
    exec (.drvDraw x y luma) s = .next { s with results := s.results ++ [.ok] }

/-- spec/42_driver_layer.md R120: a transport error of either request is returned and ends the call, for one pixel and for
a sequence; a failed column selection is followed by no data write. Clause by clause: the draw whose column selection
fails, with its whole effect; the draw of a block that is not Operational, which ends with the refusal of its first
request (log 16); the data write that fails, which ends the call in progress; any result that is not success ends the
call, and after a success it goes on (log 17); and the same of `drawAll`, the call as a whole, for a pixel that fails and
for one that succeeds. -/
def Obligations.DrawStopsAtTheFirstError : Prop :=
  (∀ (x y : Int) (luma : Byte) (s : State), 0 ≤ x → x ≤ 63 → 0 ≤ y → y ≤ 63 →
    let command : RegAddr := (s.base + 0#8).setWidth 7
    let pair : List Byte := [BitVec.ofInt 8 (x % 16), BitVec.ofInt 8 (16 + x / 16)]
    (∀ e, s.cfg = .operational → s.nextAnswer = .err e → ∃ k rest, exec (.drvDraw x y luma) s = .next { s with
      trace := s.trace ++ [.write command pair], results := s.results ++ [.err e], devCol := none,
      received := s.received ++ (pair.take k).map (fun b => ⟨command, b⟩), inFlight := none, answers := rest }) ∧
    (s.cfg ≠ .operational →
      exec (.drvDraw x y luma) s = .next { s with results := s.results ++ [.refused .notOperational] })) ∧
  (∀ (data : List Byte) (e : Config.BusError) (rest : List Pending) (s : State),
    s.pending = .dataWrite data :: rest → s.cfg = .operational → s.nextAnswer = .err e →
    ∃ k answers, step s = .next { s with
      trace := s.trace ++ [.write ((s.base + 2#8).setWidth 7) data], results := s.results ++ [.err e],
      devCol := none, received := s.received ++ (data.take k).map (fun b => ⟨(s.base + 2#8).setWidth 7, b⟩),
      inFlight := none, answers := answers, pending := [] }) ∧
  (∀ (w : Pending) (rest : List Pending) (s t : State), s.pending = w :: rest →
    exec w.instr { s with pending := rest } = .next t →
    (t.results.getLast? = some .ok → step s = .next t) ∧
    (t.results.getLast? ≠ some .ok → step s = .next { t with pending := [] })) ∧
  (∀ (p : Pixel) (ps : List Pixel) (r : Result) (s t : State), drawPixel p s = .done r t →
    (r = .ok → drawAll (p :: ps) s = drawAll ps { t with results := t.results ++ [.ok] }) ∧
    (r ≠ .ok → drawAll (p :: ps) s = .next { t with results := t.results ++ [r] }))

/-- spec/42_driver_layer.md R119: pixels are applied in the order received and without batching, out-of-range ones
dropped; k in-bounds pixels give 2k bus writes. `drawAll` is the call as a whole (log 17); that the steps of the machine
come to it is Obligations.DrawingCallsRunStepByStep. -/
def Obligations.PixelSequencesAreNotBatched : Prop :=
  ∀ (ps : List Pixel) (s : State) (rest : List Config.BusAnswer), s.cfg = .operational →
    s.answers = List.replicate (ps.flatMap (pixelOperations s.base)).length .ok ++ rest →
    ∃ t, drawAll ps s = .next t ∧ t.trace = s.trace ++ ps.flatMap (pixelOperations s.base) ∧
      t.answers = rest ∧ t.base = s.base ∧ t.cfg = s.cfg ∧
      (ps.flatMap (pixelOperations s.base)).length =
        2 * (ps.filter (fun p => decide (0 ≤ p.x ∧ p.x < 64 ∧ 0 ≤ p.y ∧ p.y < 64))).length

/-! ## Steps and runs -/

/-- A step serves the request presented (spec/10_state.md R26): with no driver call in progress, the packet at the head of
the inbox decodes to an instruction, and the step is that instruction's meaning, with the packet gone. With a call in
progress, the step is the meaning of what the call does next, and the first result that is not Ok ends the call. The
inbox and the call in progress are the MODEL'S CHOICE (log 3, log 16, log 17). -/
def Obligations.StepServesThePresentedRequest : Prop :=
  (∀ (s : State) (p : List Byte) (rest : List (List Byte)) (i : Instr), s.pending = [] → s.inbox = p :: rest →
    decode p = .ok i → step s = exec i { s with inbox := rest }) ∧
  (∀ s : State, s.pending = [] → s.inbox = [] → step s = .next s) ∧
  (∀ (s : State) (p : List Byte) (rest : List (List Byte)) (why : DecodeError),
    s.pending = [] → s.inbox = p :: rest → decode p = .error why → step s = .refused (.undecodable why)) ∧
  (∀ (s t : State) (w : Pending) (rest : List Pending), s.pending = w :: rest →
    exec w.instr { s with pending := rest } = .next t →
    step s = .next (if t.results.getLast? = some .ok then t else { t with pending := [] })) ∧
  (∀ (s : State) (w : Pending) (rest : List Pending) (f : Fault), s.pending = w :: rest →
    exec w.instr { s with pending := rest } = .fault f → step s = .fault f) ∧
  (∀ (bytes : List Byte) (p : Pixel), (Pending.dataWrite bytes).instr = .drvWriteData bytes ∧
    (Pending.pixel p).instr = .drvDraw p.x p.y p.luma)

/-- The packed form is faithful (log 1): every well-formed instruction is read back from its own packet, with every
operand at every value. -/
def Obligations.DecodeInvertsEncode : Prop :=
  ∀ i : Instr, wellFormed i = true → decode (encode i) = .ok i

/-- Everything the decoder reads is well formed (log 1, log 13). -/
def Obligations.DecodedInstructionsAreWellFormed : Prop :=
  ∀ (p : List Byte) (i : Instr), decode p = .ok i → wellFormed i = true

/-- The codes of spec/30_encoding.md R62 and R63 and the byte of R64 on a few packets written out. The spec gives the
codes and no packed word: the layout of a packet, its format bytes included, is the MODEL'S CHOICE (log 1), and so is
reading the bare byte 0x13 as SETCOL.HI (log 2). -/
def Obligations.WrittenOutWordsDecode : Prop :=
  decode [0b00000000#8, 0x1F#8] = .ok (.setColumnAddress 0x1F#8) ∧
  decode [0b00000010#8, 0x00#8, 0xFF#8, 0x00#8] = .ok (.writeData [0xFF#8, 0x00#8]) ∧
  decode [0b00010011#8] = .ok (.setcolHi 3#4) ∧
  decode [0b00100001#8, 0b00000001#8, 0x00#8] = .ok (.configPreset .B) ∧
  decode [0b00100010#8, 0x00#8, 0x3C#8] = .ok (.configCustom 0x3C#8)

/-- spec/30_encoding.md R61 and R63 in the packed form (the MODEL'S CHOICE, log 1): a field that the code does not select
is ignored. -/
def Obligations.UnselectedFieldsAreIgnored : Prop :=
  ∀ (col sel addr : Byte) (data : List Byte),
    decode (0x00#8 :: col :: data) = .ok (.setColumnAddress col) ∧
    decode (0x01#8 :: col :: data) = .ok (.readStatus 0) ∧
    decode (0x02#8 :: col :: data) = .ok (.writeData data) ∧
    decode (0x03#8 :: col :: data) = .ok (.readData 0) ∧
    decode [0x20#8, sel, addr] = .ok .configDefault ∧
    (∀ p : Preset, decode [0x21#8, presetCode p, addr] = .ok (.configPreset p)) ∧
    decode [0x22#8, sel, addr] = .ok (.configCustom addr) ∧
    decode [0x23#8, sel, addr] = .ok .configUnassigned

/-- The invariant at reset (the values of `base` and of the records are the model's choice, log 4, log 19). -/
def Obligations.ResetMeetsTheInvariant : Prop := MachineInvariant State.reset

/-- Every step keeps the invariant (spec/20_memory.md R43, R50 and R51, spec/70_reset_and_hazards.md R157): in every
Operational state BASE + 3 fits the 7-bit space, only writes are issued, a known column of the device is the one that the
last bus operation selected (the reading of DEV_COL is log 11), and no write is outstanding between requests. -/
def Obligations.EveryStepKeepsTheInvariant : Prop :=
  ∀ s t : State, MachineInvariant s → step s = .next t → MachineInvariant t

/-- spec/60_exceptions.md R131 and spec/10_state.md R23: in ConfigFault, whatever is presented short of a RESET, nothing is
ever put on the bus again. -/
def Obligations.ConfigFaultIsSilentUntilReset : Prop :=
  ∀ (k : Nat) (s t : State), s.cfg = .configFault → NoResetAhead s → Sys2Proof.core.run k s = .next t →
    t.cfg = .configFault ∧ t.base = s.base ∧ t.trace = s.trace ∧ t.received = s.received

/-- spec/70_reset_and_hazards.md R154 and spec/30_encoding.md R71: along any run without a RESET from an Operational state
BASE is constant, the block stays Operational, and every bus operation is a column pair to BASE or a payload to
BASE + 2. -/
def Obligations.OperationalRunsKeepTheirBase : Prop :=
  ∀ (k : Nat) (s t : State), s.cfg = .operational → NoResetAhead s → Sys2Proof.core.run k s = .next t →
    t.cfg = .operational ∧ t.base = s.base ∧
      ∃ new, t.trace = s.trace ++ new ∧ ∀ op ∈ new, OnChannels s.base op

/-- spec/42_driver_layer.md R117 to R120 with spec/00_scope.md R5: a call that draws a sequence of pixels runs one request
a step, and its steps come to `drawAll`, whatever the bus answers, a bus that never answers included: at most two steps
for each pixel. The form in which a call in progress stands in the state is the MODEL'S CHOICE (log 16, log 17). -/
def Obligations.DrawingCallsRunStepByStep : Prop :=
  ∀ (ps : List Pixel) (s : State), s.pending = [] →
    ∃ k, k ≤ 2 * ps.length ∧ Sys2Proof.core.run k (s.presentPixels ps) = drawAll ps s

/-- spec/00_scope.md R5 and R8, spec/20_memory.md R40 and R51, spec/30_encoding.md R68, spec/41_commands.md R90: a step
returns at most one result and issues at most one bus operation, a write to BASE + 0 or BASE + 2; nothing reaches the
device but the bytes of that write, in order from its first, all of them where the write succeeded; and no write is
outstanding after the step. (The wire rows among the instructions are log 14, the record `received` is log 10.) -/
def Obligations.EachStepMakesAtMostOneBusWrite : Prop :=
  ∀ s t : State, s.inFlight = none → step s = .next t →
    t.inFlight = none ∧
    (t.results = s.results ∨ ∃ r, t.results = s.results ++ [r]) ∧
    ((t.trace = s.trace ∧ t.received = s.received) ∨
      (s.cfg = .operational ∧ ∃ (payload : List Byte) (addr : RegAddr) (k : Nat) (r : Result),
        OnChannels s.base (.write addr payload) ∧ t.trace = s.trace ++ [.write addr payload] ∧
        t.received = s.received ++ (payload.take k).map (fun b => ⟨addr, b⟩) ∧
        t.results = s.results ++ [r] ∧ (r = .ok → payload.length ≤ k)))
end

