-- ==== Sys2Proof/Laws/State.lean ====
section
/-! SUPPORT. One lemma per field per named update of State, true by rfl: what each update leaves in each field. What a
whole bus write leaves is `transfer_eq` in Laws/Ops.lean. -/

namespace Sys2Proof.Machine

variable (s : State)

/-! ### returning a result -/

@[simp] theorem State.record_base (r : Result) : (s.record r).base = s.base := rfl
@[simp] theorem State.record_cfg (r : Result) : (s.record r).cfg = s.cfg := rfl
@[simp] theorem State.record_trace (r : Result) : (s.record r).trace = s.trace := rfl
@[simp] theorem State.record_results (r : Result) : (s.record r).results = s.results ++ [r] := rfl
@[simp] theorem State.record_devCol (r : Result) : (s.record r).devCol = s.devCol := rfl
@[simp] theorem State.record_received (r : Result) : (s.record r).received = s.received := rfl
@[simp] theorem State.record_inFlight (r : Result) : (s.record r).inFlight = s.inFlight := rfl
@[simp] theorem State.record_inbox (r : Result) : (s.record r).inbox = s.inbox := rfl
@[simp] theorem State.record_pending (r : Result) : (s.record r).pending = s.pending := rfl
@[simp] theorem State.record_answers (r : Result) : (s.record r).answers = s.answers := rfl
@[simp] theorem State.record_resets (r : Result) : (s.record r).resets = s.resets := rfl

/-! ### issuing a bus operation -/

@[simp] theorem State.issue_base (op : BusOp) : (s.issue op).base = s.base := rfl
@[simp] theorem State.issue_cfg (op : BusOp) : (s.issue op).cfg = s.cfg := rfl
@[simp] theorem State.issue_trace (op : BusOp) : (s.issue op).trace = s.trace ++ [op] := rfl
@[simp] theorem State.issue_results (op : BusOp) : (s.issue op).results = s.results := rfl
@[simp] theorem State.issue_devCol (op : BusOp) : (s.issue op).devCol = none := rfl
@[simp] theorem State.issue_received (op : BusOp) : (s.issue op).received = s.received := rfl
@[simp] theorem State.issue_inFlight (op : BusOp) : (s.issue op).inFlight = s.inFlight := rfl
@[simp] theorem State.issue_inbox (op : BusOp) : (s.issue op).inbox = s.inbox := rfl
@[simp] theorem State.issue_pending (op : BusOp) : (s.issue op).pending = s.pending := rfl
@[simp] theorem State.issue_answers (op : BusOp) : (s.issue op).answers = s.answers.tail := rfl
@[simp] theorem State.issue_resets (op : BusOp) : (s.issue op).resets = s.resets := rfl

/-! ### a bus write that starts -/

@[simp] theorem State.startTransfer_base (reg : RegAddr) (payload : List Byte) : (s.startTransfer reg payload).base = s.base := rfl
@[simp] theorem State.startTransfer_cfg (reg : RegAddr) (payload : List Byte) : (s.startTransfer reg payload).cfg = s.cfg := rfl
@[simp] theorem State.startTransfer_trace (reg : RegAddr) (payload : List Byte) : (s.startTransfer reg payload).trace = s.trace := rfl
@[simp] theorem State.startTransfer_results (reg : RegAddr) (payload : List Byte) : (s.startTransfer reg payload).results = s.results := rfl
@[simp] theorem State.startTransfer_devCol (reg : RegAddr) (payload : List Byte) : (s.startTransfer reg payload).devCol = s.devCol := rfl
@[simp] theorem State.startTransfer_received (reg : RegAddr) (payload : List Byte) : (s.startTransfer reg payload).received = s.received := rfl
@[simp] theorem State.startTransfer_inFlight (reg : RegAddr) (payload : List Byte) : (s.startTransfer reg payload).inFlight = some ⟨reg, payload⟩ := rfl
@[simp] theorem State.startTransfer_inbox (reg : RegAddr) (payload : List Byte) : (s.startTransfer reg payload).inbox = s.inbox := rfl
@[simp] theorem State.startTransfer_pending (reg : RegAddr) (payload : List Byte) : (s.startTransfer reg payload).pending = s.pending := rfl
@[simp] theorem State.startTransfer_answers (reg : RegAddr) (payload : List Byte) : (s.startTransfer reg payload).answers = s.answers := rfl
@[simp] theorem State.startTransfer_resets (reg : RegAddr) (payload : List Byte) : (s.startTransfer reg payload).resets = s.resets := rfl

/-! ### something on the transport's side -/

@[simp] theorem State.onWire_base (f : Wire → Wire) : (s.onWire f).base = s.base := rfl
@[simp] theorem State.onWire_cfg (f : Wire → Wire) : (s.onWire f).cfg = s.cfg := rfl
@[simp] theorem State.onWire_trace (f : Wire → Wire) : (s.onWire f).trace = s.trace := rfl
@[simp] theorem State.onWire_results (f : Wire → Wire) : (s.onWire f).results = s.results := rfl
@[simp] theorem State.onWire_devCol (f : Wire → Wire) : (s.onWire f).devCol = s.devCol := rfl
@[simp] theorem State.onWire_received (f : Wire → Wire) : (s.onWire f).received = (f (s.inFlight, s.received)).2 := rfl
@[simp] theorem State.onWire_inFlight (f : Wire → Wire) : (s.onWire f).inFlight = (f (s.inFlight, s.received)).1 := rfl
@[simp] theorem State.onWire_inbox (f : Wire → Wire) : (s.onWire f).inbox = s.inbox := rfl
@[simp] theorem State.onWire_pending (f : Wire → Wire) : (s.onWire f).pending = s.pending := rfl
@[simp] theorem State.onWire_answers (f : Wire → Wire) : (s.onWire f).answers = s.answers := rfl
@[simp] theorem State.onWire_resets (f : Wire → Wire) : (s.onWire f).resets = s.resets := rfl

/-! ### a bus write that ends -/

@[simp] theorem State.endTransfer_base : s.endTransfer.base = s.base := rfl
@[simp] theorem State.endTransfer_cfg : s.endTransfer.cfg = s.cfg := rfl
@[simp] theorem State.endTransfer_trace : s.endTransfer.trace = s.trace := rfl
@[simp] theorem State.endTransfer_results : s.endTransfer.results = s.results := rfl
@[simp] theorem State.endTransfer_devCol : s.endTransfer.devCol = s.devCol := rfl
@[simp] theorem State.endTransfer_received : s.endTransfer.received = s.received := rfl
@[simp] theorem State.endTransfer_inFlight : s.endTransfer.inFlight = none := rfl
@[simp] theorem State.endTransfer_inbox : s.endTransfer.inbox = s.inbox := rfl
@[simp] theorem State.endTransfer_pending : s.endTransfer.pending = s.pending := rfl
@[simp] theorem State.endTransfer_answers : s.endTransfer.answers = s.answers := rfl
@[simp] theorem State.endTransfer_resets : s.endTransfer.resets = s.resets := rfl

/-! ### a column selection -/

@[simp] theorem State.selectColumn_base (col : Byte) : (s.selectColumn col).base = s.base := rfl
@[simp] theorem State.selectColumn_cfg (col : Byte) : (s.selectColumn col).cfg = s.cfg := rfl
@[simp] theorem State.selectColumn_trace (col : Byte) : (s.selectColumn col).trace = s.trace := rfl
@[simp] theorem State.selectColumn_results (col : Byte) : (s.selectColumn col).results = s.results := rfl
@[simp] theorem State.selectColumn_devCol (col : Byte) : (s.selectColumn col).devCol = some col := rfl
@[simp] theorem State.selectColumn_received (col : Byte) : (s.selectColumn col).received = s.received := rfl
@[simp] theorem State.selectColumn_inFlight (col : Byte) : (s.selectColumn col).inFlight = s.inFlight := rfl
@[simp] theorem State.selectColumn_inbox (col : Byte) : (s.selectColumn col).inbox = s.inbox := rfl
@[simp] theorem State.selectColumn_pending (col : Byte) : (s.selectColumn col).pending = s.pending := rfl
@[simp] theorem State.selectColumn_answers (col : Byte) : (s.selectColumn col).answers = s.answers := rfl
@[simp] theorem State.selectColumn_resets (col : Byte) : (s.selectColumn col).resets = s.resets := rfl

/-! ### a column becoming unknown -/

@[simp] theorem State.forgetColumn_base : s.forgetColumn.base = s.base := rfl
@[simp] theorem State.forgetColumn_cfg : s.forgetColumn.cfg = s.cfg := rfl
@[simp] theorem State.forgetColumn_trace : s.forgetColumn.trace = s.trace := rfl
@[simp] theorem State.forgetColumn_results : s.forgetColumn.results = s.results := rfl
@[simp] theorem State.forgetColumn_devCol : s.forgetColumn.devCol = none := rfl
@[simp] theorem State.forgetColumn_received : s.forgetColumn.received = s.received := rfl
@[simp] theorem State.forgetColumn_inFlight : s.forgetColumn.inFlight = s.inFlight := rfl
@[simp] theorem State.forgetColumn_inbox : s.forgetColumn.inbox = s.inbox := rfl
@[simp] theorem State.forgetColumn_pending : s.forgetColumn.pending = s.pending := rfl
@[simp] theorem State.forgetColumn_answers : s.forgetColumn.answers = s.answers := rfl
@[simp] theorem State.forgetColumn_resets : s.forgetColumn.resets = s.resets := rfl

/-! ### a configuration load -/

@[simp] theorem State.loadBase_base (b : Byte) : (s.loadBase b).base = b := rfl
@[simp] theorem State.loadBase_cfg (b : Byte) : (s.loadBase b).cfg = .operational := rfl
@[simp] theorem State.loadBase_trace (b : Byte) : (s.loadBase b).trace = s.trace := rfl
@[simp] theorem State.loadBase_results (b : Byte) : (s.loadBase b).results = s.results := rfl
@[simp] theorem State.loadBase_devCol (b : Byte) : (s.loadBase b).devCol = s.devCol := rfl
@[simp] theorem State.loadBase_received (b : Byte) : (s.loadBase b).received = s.received := rfl
@[simp] theorem State.loadBase_inFlight (b : Byte) : (s.loadBase b).inFlight = s.inFlight := rfl
@[simp] theorem State.loadBase_inbox (b : Byte) : (s.loadBase b).inbox = s.inbox := rfl
@[simp] theorem State.loadBase_pending (b : Byte) : (s.loadBase b).pending = s.pending := rfl
@[simp] theorem State.loadBase_answers (b : Byte) : (s.loadBase b).answers = s.answers := rfl
@[simp] theorem State.loadBase_resets (b : Byte) : (s.loadBase b).resets = s.resets := rfl

/-! ### raising ConfigError -/

@[simp] theorem State.raiseConfigError_base : s.raiseConfigError.base = s.base := rfl
@[simp] theorem State.raiseConfigError_cfg : s.raiseConfigError.cfg = .configFault := rfl
@[simp] theorem State.raiseConfigError_trace : s.raiseConfigError.trace = s.trace := rfl
@[simp] theorem State.raiseConfigError_results : s.raiseConfigError.results = s.results := rfl
@[simp] theorem State.raiseConfigError_devCol : s.raiseConfigError.devCol = s.devCol := rfl
@[simp] theorem State.raiseConfigError_received : s.raiseConfigError.received = s.received := rfl
@[simp] theorem State.raiseConfigError_inFlight : s.raiseConfigError.inFlight = s.inFlight := rfl
@[simp] theorem State.raiseConfigError_inbox : s.raiseConfigError.inbox = s.inbox := rfl
@[simp] theorem State.raiseConfigError_pending : s.raiseConfigError.pending = s.pending := rfl
@[simp] theorem State.raiseConfigError_answers : s.raiseConfigError.answers = s.answers := rfl
@[simp] theorem State.raiseConfigError_resets : s.raiseConfigError.resets = s.resets := rfl

/-! ### RESET -/

@[simp] theorem State.resetBlock_base : s.resetBlock.base = Config.baseAfterReset s.resets := rfl
@[simp] theorem State.resetBlock_cfg : s.resetBlock.cfg = .unconfigured := rfl
@[simp] theorem State.resetBlock_trace : s.resetBlock.trace = s.trace := rfl
@[simp] theorem State.resetBlock_results : s.resetBlock.results = s.results := rfl
@[simp] theorem State.resetBlock_devCol : s.resetBlock.devCol = s.devCol := rfl
@[simp] theorem State.resetBlock_received : s.resetBlock.received = s.received := rfl
@[simp] theorem State.resetBlock_inFlight : s.resetBlock.inFlight = s.inFlight := rfl
@[simp] theorem State.resetBlock_inbox : s.resetBlock.inbox = s.inbox := rfl
@[simp] theorem State.resetBlock_pending : s.resetBlock.pending = s.pending := rfl
@[simp] theorem State.resetBlock_answers : s.resetBlock.answers = s.answers := rfl
@[simp] theorem State.resetBlock_resets : s.resetBlock.resets = s.resets + 1 := rfl

/-! ### what a driver call does next -/

@[simp] theorem State.await_base (w : Pending) : (s.await w).base = s.base := rfl
@[simp] theorem State.await_cfg (w : Pending) : (s.await w).cfg = s.cfg := rfl
@[simp] theorem State.await_trace (w : Pending) : (s.await w).trace = s.trace := rfl
@[simp] theorem State.await_results (w : Pending) : (s.await w).results = s.results := rfl
@[simp] theorem State.await_devCol (w : Pending) : (s.await w).devCol = s.devCol := rfl
@[simp] theorem State.await_received (w : Pending) : (s.await w).received = s.received := rfl
@[simp] theorem State.await_inFlight (w : Pending) : (s.await w).inFlight = s.inFlight := rfl
@[simp] theorem State.await_inbox (w : Pending) : (s.await w).inbox = s.inbox := rfl
@[simp] theorem State.await_pending (w : Pending) : (s.await w).pending = w :: s.pending := rfl
@[simp] theorem State.await_answers (w : Pending) : (s.await w).answers = s.answers := rfl
@[simp] theorem State.await_resets (w : Pending) : (s.await w).resets = s.resets := rfl

/-! ### the end of a driver call -/

@[simp] theorem State.dropPending_base : s.dropPending.base = s.base := rfl
@[simp] theorem State.dropPending_cfg : s.dropPending.cfg = s.cfg := rfl
@[simp] theorem State.dropPending_trace : s.dropPending.trace = s.trace := rfl
@[simp] theorem State.dropPending_results : s.dropPending.results = s.results := rfl
@[simp] theorem State.dropPending_devCol : s.dropPending.devCol = s.devCol := rfl
@[simp] theorem State.dropPending_received : s.dropPending.received = s.received := rfl
@[simp] theorem State.dropPending_inFlight : s.dropPending.inFlight = s.inFlight := rfl
@[simp] theorem State.dropPending_inbox : s.dropPending.inbox = s.inbox := rfl
@[simp] theorem State.dropPending_pending : s.dropPending.pending = [] := rfl
@[simp] theorem State.dropPending_answers : s.dropPending.answers = s.answers := rfl
@[simp] theorem State.dropPending_resets : s.dropPending.resets = s.resets := rfl

/-! ### a sequence of pixels presented -/

@[simp] theorem State.presentPixels_base (ps : List Pixel) : (s.presentPixels ps).base = s.base := rfl
@[simp] theorem State.presentPixels_cfg (ps : List Pixel) : (s.presentPixels ps).cfg = s.cfg := rfl
@[simp] theorem State.presentPixels_trace (ps : List Pixel) : (s.presentPixels ps).trace = s.trace := rfl
@[simp] theorem State.presentPixels_results (ps : List Pixel) : (s.presentPixels ps).results = s.results := rfl
@[simp] theorem State.presentPixels_devCol (ps : List Pixel) : (s.presentPixels ps).devCol = s.devCol := rfl
@[simp] theorem State.presentPixels_received (ps : List Pixel) : (s.presentPixels ps).received = s.received := rfl
@[simp] theorem State.presentPixels_inFlight (ps : List Pixel) : (s.presentPixels ps).inFlight = s.inFlight := rfl
@[simp] theorem State.presentPixels_inbox (ps : List Pixel) : (s.presentPixels ps).inbox = s.inbox := rfl
@[simp] theorem State.presentPixels_pending (ps : List Pixel) : (s.presentPixels ps).pending = ps.map .pixel := rfl
@[simp] theorem State.presentPixels_answers (ps : List Pixel) : (s.presentPixels ps).answers = s.answers := rfl
@[simp] theorem State.presentPixels_resets (ps : List Pixel) : (s.presentPixels ps).resets = s.resets := rfl

/-! ### a word of the opcode table presented -/

@[simp] theorem State.withFetchWord_base (nbits w : Nat) : (s.withFetchWord nbits w).base = s.base := rfl
@[simp] theorem State.withFetchWord_cfg (nbits w : Nat) : (s.withFetchWord nbits w).cfg = s.cfg := rfl
@[simp] theorem State.withFetchWord_trace (nbits w : Nat) : (s.withFetchWord nbits w).trace = s.trace := rfl
@[simp] theorem State.withFetchWord_results (nbits w : Nat) : (s.withFetchWord nbits w).results = s.results := rfl
@[simp] theorem State.withFetchWord_devCol (nbits w : Nat) : (s.withFetchWord nbits w).devCol = s.devCol := rfl
@[simp] theorem State.withFetchWord_received (nbits w : Nat) : (s.withFetchWord nbits w).received = s.received := rfl
@[simp] theorem State.withFetchWord_inFlight (nbits w : Nat) : (s.withFetchWord nbits w).inFlight = s.inFlight := rfl
@[simp] theorem State.withFetchWord_inbox (nbits w : Nat) : (s.withFetchWord nbits w).inbox = tablePacket nbits w :: s.inbox := rfl
@[simp] theorem State.withFetchWord_pending (nbits w : Nat) : (s.withFetchWord nbits w).pending = [] := rfl
@[simp] theorem State.withFetchWord_answers (nbits w : Nat) : (s.withFetchWord nbits w).answers = s.answers := rfl
@[simp] theorem State.withFetchWord_resets (nbits w : Nat) : (s.withFetchWord nbits w).resets = s.resets := rfl

end Sys2Proof.Machine
end

