-- ==== Sys2Proof/Laws/Ops.lean ====
section
/-! SUPPORT. One lemma per shared operation that says everything it can do; later proofs cite it and do not unfold the
operation. -/

namespace Sys2Proof.Machine

variable {s t : State} {r : Result}

@[simp] theorem isOperational_eq_true : s.isOperational = true ↔ s.cfg = .operational := by
  simp [State.isOperational]

@[simp] theorem isUnconfigured_eq_true : s.isUnconfigured = true ↔ s.cfg = .unconfigured := by
  simp [State.isUnconfigured]

/-- The answer that comes is the first one listed. -/
@[simp] theorem nextAnswer_of_cons {a : Config.BusAnswer} {rest : List Config.BusAnswer} (h : s.answers = a :: rest) :
    s.nextAnswer = a := by
  simp [State.nextAnswer, h]

/-- A step that serves a request goes on exactly where the request ended, with its result recorded. -/
theorem outcome_eq_next {x : Served} : x.outcome = .next t ↔ ∃ r s', x = .done r s' ∧ t = s'.record r := by
  cases x <;> simp [Served.outcome, eq_comm]

/-- A request of the block never ends in a refusal of the host's kind. -/
theorem outcome_ne_refused {x : Served} {why : Refusal} : x.outcome ≠ .refused why := by
  cases x <;> simp [Served.outcome]

/-- Two requests in a row: the second is made where the first succeeded, else the first result is the whole's. -/
theorem andThen_eq_done {x : Served} {k : State → Served} :
    x.andThen k = .done r t ↔
      (∃ s', x = .done .ok s' ∧ k (s'.record .ok) = .done r t) ∨ (x = .done r t ∧ r ≠ .ok) := by
  rcases x with ⟨r', s'⟩ | _
  · cases r' <;> simp [Served.andThen] <;> rintro rfl <;> simp
  · simp [Served.andThen]

/-- The first bytes of the payload in flight travel to its register, in order; the rest stays in flight. -/
theorem carryBytes_eq (reg : RegAddr) (bs rest : List Byte) (received : List Delivery) :
    carryBytes reg bs (some ⟨reg, bs ++ rest⟩, received) =
      (some ⟨reg, rest⟩, received ++ bs.map (fun b => ⟨reg, b⟩)) := by
  induction bs generalizing received with
  | nil => simp [carryBytes]
  | cons b bs ih => simp [carryBytes, carryByte, ih]

/-- What changes nothing on the transport's side changes nothing. -/
theorem onWire_of_fixed {f : Wire → Wire} (h : f (s.inFlight, s.received) = (s.inFlight, s.received)) :
    s.onWire f = s := by
  simp [State.onWire, h]

/-- Everything one byte can do: travel as the next byte of the bus write in flight to its register, or nothing. -/
theorem carryByte_cases (reg : RegAddr) (b : Byte) (s : State) :
    (∃ rest, s.inFlight = some ⟨reg, b :: rest⟩ ∧
      s.onWire (carryByte reg b) =
        { s with received := s.received ++ [⟨reg, b⟩], inFlight := some ⟨reg, rest⟩ }) ∨
    ((∀ rest, s.inFlight ≠ some ⟨reg, b :: rest⟩) ∧ s.onWire (carryByte reg b) = s) := by
  rcases hf : s.inFlight with _ | ⟨r, _ | ⟨b', rest⟩⟩
  · exact .inr ⟨nofun, onWire_of_fixed (by rw [hf]; rfl)⟩
  · exact .inr ⟨by simp, onWire_of_fixed (by rw [hf]; rfl)⟩
  · by_cases hb : r = reg ∧ b' = b
    · obtain ⟨rfl, rfl⟩ := hb
      exact .inl ⟨rest, rfl, by simp [State.onWire, hf, carryByte]⟩
    · refine .inr ⟨?_, onWire_of_fixed (by rw [hf]; simp [carryByte, hb])⟩
      intro rest' h
      simp_all

/-- A bus write of which `k` bytes travel: they are delivered to the one register, and nothing stays in flight. -/
theorem transfer_eq (reg : RegAddr) (v : List Byte) (k : Nat) (s : State) :
    s.transfer reg v k =
      { s with received := s.received ++ (v.take k).map (fun b => ⟨reg, b⟩), inFlight := none } := by
  have h := carryBytes_eq reg (v.take k) (v.drop k) s.received
  rw [List.take_append_drop] at h
  simp [State.transfer, State.startTransfer, State.onWire, State.endTransfer, h]

/-! What such a bus write leaves in each field. -/

@[simp] theorem State.transfer_base (reg : RegAddr) (v : List Byte) (k : Nat) (s : State) :
    (s.transfer reg v k).base = s.base := by rw [transfer_eq]
@[simp] theorem State.transfer_cfg (reg : RegAddr) (v : List Byte) (k : Nat) (s : State) :
    (s.transfer reg v k).cfg = s.cfg := by rw [transfer_eq]
@[simp] theorem State.transfer_trace (reg : RegAddr) (v : List Byte) (k : Nat) (s : State) :
    (s.transfer reg v k).trace = s.trace := by rw [transfer_eq]
@[simp] theorem State.transfer_results (reg : RegAddr) (v : List Byte) (k : Nat) (s : State) :
    (s.transfer reg v k).results = s.results := by rw [transfer_eq]
@[simp] theorem State.transfer_devCol (reg : RegAddr) (v : List Byte) (k : Nat) (s : State) :
    (s.transfer reg v k).devCol = s.devCol := by rw [transfer_eq]
@[simp] theorem State.transfer_received (reg : RegAddr) (v : List Byte) (k : Nat) (s : State) :
    (s.transfer reg v k).received = s.received ++ (v.take k).map (fun b => ⟨reg, b⟩) := by rw [transfer_eq]
@[simp] theorem State.transfer_inFlight (reg : RegAddr) (v : List Byte) (k : Nat) (s : State) :
    (s.transfer reg v k).inFlight = none := by rw [transfer_eq]
@[simp] theorem State.transfer_inbox (reg : RegAddr) (v : List Byte) (k : Nat) (s : State) :
    (s.transfer reg v k).inbox = s.inbox := by rw [transfer_eq]
@[simp] theorem State.transfer_pending (reg : RegAddr) (v : List Byte) (k : Nat) (s : State) :
    (s.transfer reg v k).pending = s.pending := by rw [transfer_eq]
@[simp] theorem State.transfer_answers (reg : RegAddr) (v : List Byte) (k : Nat) (s : State) :
    (s.transfer reg v k).answers = s.answers := by rw [transfer_eq]
@[simp] theorem State.transfer_resets (reg : RegAddr) (v : List Byte) (k : Nat) (s : State) :
    (s.transfer reg v k).resets = s.resets := by rw [transfer_eq]

/-- MemWrite ends with the transport's own answer, one attempt in the TRACE, and the bytes that were delivered. -/
theorem memWrite_cases {addr : RegAddr} {v : List Byte} (h : memWrite addr v s = .done r t) :
    (s.nextAnswer = .ok ∧ r = .ok ∧ t = (s.issue (.write addr v)).transfer addr v v.length) ∨
    (∃ e, s.nextAnswer = .err e ∧ r = .err e ∧
      t = (s.issue (.write addr v)).transfer addr v (Config.deliveredOnError s.trace.length)) := by
  unfold memWrite at h
  split at h <;> simp_all

/-- MemWrite hangs exactly where the transport never answers. -/
theorem memWrite_eq_hang {addr : RegAddr} {v : List Byte} : memWrite addr v s = .hang ↔ s.nextAnswer = .never := by
  unfold memWrite
  split <;> simp_all

/-- MemRead ends with the transport's own answer and one attempt in the TRACE. -/
theorem memRead_cases {addr : RegAddr} {n : Nat} (h : memRead addr n s = .done r t) :
    t = s.issue (.read addr n) ∧
      ((s.nextAnswer = .ok ∧ r = .okBytes (readBytes s.trace.length n)) ∨ ∃ e, s.nextAnswer = .err e ∧ r = .err e) := by
  unfold memRead at h
  split at h <;> simp_all

/-- An operation request is served in Operational, and refused without effect elsewhere. -/
theorem whenOperational_cases {k : State → Served} (h : whenOperational s k = .done r t) :
    (s.cfg = .operational ∧ k s = .done r t) ∨ (s.cfg ≠ .operational ∧ r = .refused .notOperational ∧ t = s) := by
  unfold whenOperational at h
  split at h <;> simp_all

/-- A configuration request is served in Unconfigured, and refused without effect elsewhere. -/
theorem whenUnconfigured_cases {k : State → Served} (h : whenUnconfigured s k = .done r t) :
    (s.cfg = .unconfigured ∧ k s = .done r t) ∨ (s.cfg ≠ .unconfigured ∧ r = .refused .badConfigRequest ∧ t = s) := by
  unfold whenUnconfigured at h
  split at h <;> simp_all

/-- Only a success selects a column. -/
theorem columnSelected_eq_done {x : Served} {col : Byte} :
    x.columnSelected col = .done r t ↔
      (∃ s', x = .done .ok s' ∧ r = .ok ∧ t = s'.selectColumn col) ∨ (x = .done r t ∧ r ≠ .ok) := by
  rcases x with ⟨r', s'⟩ | _
  · cases r' <;> simp [Served.columnSelected, eq_comm] <;> (try rintro rfl) <;> simp
  · simp [Served.columnSelected]

/-- A WriteData leaves the column unknown, whatever its result. -/
theorem columnForgotten_eq_done {x : Served} :
    x.columnForgotten = .done r t ↔ ∃ s', x = .done r s' ∧ t = s'.forgetColumn := by
  cases x <;> simp [Served.columnForgotten, eq_comm]

/-- Everything SetColumnAddress can do. -/
theorem serveSetColumnAddress_cases {col : Byte} (h : serveSetColumnAddress col s = .done r t) :
    (s.cfg ≠ .operational ∧ r = .refused .notOperational ∧ t = s) ∨
    (s.cfg = .operational ∧ s.nextAnswer = .ok ∧ r = .ok ∧
      t = ((s.issue (.write (effectiveAddress s.base .setColumnAddress) (setColumnPayload col))).transfer
        (effectiveAddress s.base .setColumnAddress) (setColumnPayload col) 2).selectColumn col) ∨
    (s.cfg = .operational ∧ ∃ e, s.nextAnswer = .err e ∧ r = .err e ∧
      t = (s.issue (.write (effectiveAddress s.base .setColumnAddress) (setColumnPayload col))).transfer
        (effectiveAddress s.base .setColumnAddress) (setColumnPayload col)
        (Config.deliveredOnError s.trace.length)) := by
  rcases whenOperational_cases h with ⟨hs, h⟩ | ⟨hs, rfl, rfl⟩
  · rcases columnSelected_eq_done.1 h with ⟨s', hw, rfl, rfl⟩ | ⟨hw, hr⟩
    · rcases memWrite_cases hw with ⟨ha, -, rfl⟩ | ⟨e, -, he, -⟩
      · exact .inr (.inl ⟨hs, ha, rfl, rfl⟩)
      · cases he
    · rcases memWrite_cases hw with ⟨-, rfl, -⟩ | ⟨e, ha, rfl, rfl⟩
      · exact absurd rfl hr
      · exact .inr (.inr ⟨hs, e, ha, rfl, rfl⟩)
  · exact .inl ⟨hs, rfl, rfl⟩

/-- Everything WriteData can do. -/
theorem serveWriteData_cases {data : List Byte} (h : serveWriteData data s = .done r t) :
    (s.cfg ≠ .operational ∧ r = .refused .notOperational ∧ t = s.forgetColumn) ∨
    (s.cfg = .operational ∧ s.nextAnswer = .ok ∧ r = .ok ∧
      t = ((s.issue (.write (effectiveAddress s.base .writeData) data)).transfer
        (effectiveAddress s.base .writeData) data data.length).forgetColumn) ∨
    (s.cfg = .operational ∧ ∃ e, s.nextAnswer = .err e ∧ r = .err e ∧
      t = ((s.issue (.write (effectiveAddress s.base .writeData) data)).transfer
        (effectiveAddress s.base .writeData) data (Config.deliveredOnError s.trace.length)).forgetColumn) := by
  obtain ⟨t, hw, rfl⟩ := columnForgotten_eq_done.1 h
  rcases whenOperational_cases hw with ⟨hs, h⟩ | ⟨hs, rfl, rfl⟩
  · rcases memWrite_cases h with ⟨ha, rfl, rfl⟩ | ⟨e, ha, rfl, rfl⟩
    · exact .inr (.inl ⟨hs, ha, rfl, rfl⟩)
    · exact .inr (.inr ⟨hs, e, ha, rfl, rfl⟩)
  · exact .inl ⟨hs, rfl, rfl⟩

/-- Under READ_OPS = refuse a reserved read changes nothing and never hangs. -/
theorem serveRead_refuse (op : OperationType) (count : Nat) (s : State) :
    serveRead .refuse op count s =
      .done (.refused (if s.cfg = .operational then .reservedOperation else .notOperational)) s := by
  unfold serveRead whenOperational
  by_cases h : s.cfg = .operational <;> simp [State.isOperational, h]

/-- Everything a wire byte can do. -/
theorem wireByte_cases (op : OperationType) (b : Byte) (s : State) :
    (∃ rest, s.cfg = .operational ∧ s.inFlight = some ⟨effectiveAddress s.base op, b :: rest⟩ ∧
      wireByte op b s = .next { s with
        received := s.received ++ [⟨effectiveAddress s.base op, b⟩],
        inFlight := some ⟨effectiveAddress s.base op, rest⟩ }) ∨
    ((s.cfg = .operational → ∀ rest, s.inFlight ≠ some ⟨effectiveAddress s.base op, b :: rest⟩) ∧
      wireByte op b s = .next s) := by
  unfold wireByte
  by_cases hs : s.cfg = .operational
  · rcases carryByte_cases (effectiveAddress s.base op) b s with ⟨rest, hf, h⟩ | ⟨hf, h⟩
    · exact .inl ⟨rest, hs, hf, by simp [State.isOperational, hs, h]⟩
    · exact .inr ⟨fun _ => hf, by simp [State.isOperational, hs, h]⟩
  · exact .inr ⟨fun h => absurd h hs, by simp [State.isOperational, hs]⟩

/-- Everything CONFIG Default can do, for any DEFAULT_BASE. -/
theorem serveConfigDefault_cases {d : Byte} (h : serveConfigDefault d s = .done r t) :
    (s.cfg = .unconfigured ∧ d.toNat ≤ 0x7C ∧ r = .ok ∧ t = s.loadBase d) ∨
    ((s.cfg ≠ .unconfigured ∨ 0x7C < d.toNat) ∧ r = .refused .badConfigRequest ∧ t = s) := by
  rcases whenUnconfigured_cases h with ⟨hs, h⟩ | ⟨hs, rfl, rfl⟩
  · unfold defaultBaseOutsidePremise at h
    split at h
    · rename_i hd
      simp [BitVec.ult] at hd h
      exact .inr ⟨.inr hd, h.1.symm, h.2.symm⟩
    · rename_i hd
      simp [BitVec.ult] at hd h
      exact .inl ⟨hs, hd, h.1.symm, h.2.symm⟩
  · exact .inr ⟨.inl hs, rfl, rfl⟩

/-- Everything CONFIG Preset can do. -/
theorem serveConfigPreset_cases {sel : Preset} (h : serveConfigPreset sel s = .done r t) :
    (s.cfg = .unconfigured ∧ r = .ok ∧ t = s.loadBase (presetBase sel)) ∨
    (s.cfg ≠ .unconfigured ∧ r = .refused .badConfigRequest ∧ t = s) := by
  rcases whenUnconfigured_cases h with ⟨hs, h⟩ | h
  · cases h
    exact .inl ⟨hs, rfl, rfl⟩
  · exact .inr h

/-- Everything CONFIG Custom can do. -/
theorem serveConfigCustom_cases {a : Byte} (h : serveConfigCustom a s = .done r t) :
    (s.cfg = .unconfigured ∧ a.toNat < 0x7B ∧ r = .ok ∧ t = s.loadBase a) ∨
    (s.cfg = .unconfigured ∧ 0x7B ≤ a.toNat ∧ r = .configError ∧ t = s.raiseConfigError) ∨
    (s.cfg ≠ .unconfigured ∧ r = .refused .badConfigRequest ∧ t = s) := by
  rcases whenUnconfigured_cases h with ⟨hs, h⟩ | h
  · unfold customBaseValid at h
    split at h
    · rename_i ha
      simp [BitVec.ult] at ha h
      exact .inl ⟨hs, ha, h.1.symm, h.2.symm⟩
    · rename_i ha
      simp [BitVec.ult] at ha h
      exact .inr (.inl ⟨hs, ha, h.1.symm, h.2.symm⟩)
  · exact .inr (.inr h)

/-- Everything `set_column_address` can do. -/
theorem serveSetColumnMethod_cases {n : Nat} (h : serveSetColumnMethod n s = .done r t) :
    (n ≤ 255 ∧ serveSetColumnAddress (BitVec.ofNat 8 n) s = .done r t) ∨
    (255 < n ∧ r = .refused .columnOutOfRange ∧ t = s) := by
  unfold serveSetColumnMethod at h
  split at h
  · exact .inl ⟨by assumption, h⟩
  · cases h
    exact .inr ⟨by omega, rfl, rfl⟩

/-- A pixel is in bounds exactly where both coordinates are 0 to 63. -/
theorem pixelInBounds_iff {x y : Int} : pixelInBounds x y = true ↔ 0 ≤ x ∧ x < 64 ∧ 0 ≤ y ∧ y < 64 := by
  simp only [pixelInBounds, Bool.and_eq_true, decide_eq_true_iff, and_assoc]
  simp only [canvasSize, Nat.cast_ofNat]

/-- Only after a success does a call go on to its next request. -/
theorem thenAwait_eq_done {x : Served} {w : Pending} :
    x.thenAwait w = .done r t ↔
      (∃ s', x = .done .ok s' ∧ r = .ok ∧ t = s'.await w) ∨ (x = .done r t ∧ r ≠ .ok) := by
  rcases x with ⟨r', s'⟩ | _
  · cases r' <;> simp [Served.thenAwait, eq_comm] <;> (try rintro rfl) <;> simp
  · simp [Served.thenAwait]

/-- Everything the step of `draw` can do: nothing out of bounds; in bounds the column selection, and after its success
the data write is what the call does next. -/
theorem serveDraw_cases {x y : Int} {luma : Byte} (h : serveDraw x y luma s = .done r t) :
    (pixelInBounds x y = false ∧ r = .ok ∧ t = s) ∨
    (pixelInBounds x y = true ∧ ∃ s', serveSetColumnAddress (BitVec.ofNat 8 x.toNat) s = .done .ok s' ∧
      r = .ok ∧ t = s'.await (.dataWrite (Config.pixelEncode x y luma))) ∨
    (pixelInBounds x y = true ∧ serveSetColumnAddress (BitVec.ofNat 8 x.toNat) s = .done r t ∧ r ≠ .ok) := by
  unfold serveDraw at h
  split at h
  · rename_i hb
    have hx : x.toNat ≤ 255 := by have := pixelInBounds_iff.1 hb; omega
    rw [serveSetColumnMethod, if_pos hx] at h
    rcases thenAwait_eq_done.1 h with h | h
    · exact .inr (.inl ⟨hb, h⟩)
    · exact .inr (.inr ⟨hb, h⟩)
  · cases h
    exact .inl ⟨by simp_all, rfl, rfl⟩

/-- A call goes on after a success, and ends after any other result. -/
theorem continueCall_eq_next {o : Host.Outcome State Fault Refusal} (h : continueCall o = .next t) :
    ∃ u, o = .next u ∧ ((u.results.getLast? = some .ok ∧ t = u) ∨ (u.results.getLast? ≠ some .ok ∧ t = u.dropPending)) := by
  cases o with
  | next u =>
    refine ⟨u, rfl, ?_⟩
    by_cases hu : u.results.getLast? = some .ok
    · simp [continueCall, hu] at h
      exact .inl ⟨hu, h.symm⟩
    · simp [continueCall, hu] at h
      exact .inr ⟨hu, h.symm⟩
  | fault f => cases h
  | refused why => cases h

/-- A step with nothing presented and no call in progress changes nothing. -/
theorem step_idle (hp : s.pending = []) (h : s.inbox = []) : step s = .next s := by
  simp [step, hp, h]

/-- With a call in progress the step is what the call does next. -/
theorem step_pending {w : Pending} {rest : List Pending} (h : s.pending = w :: rest) :
    step s = continueCall (exec w.instr { s with pending := rest }) := by
  simp [step, h]

/-- With none in progress the step is the instruction of the packet presented. -/
theorem step_presented {p : List Byte} {rest : List (List Byte)} {i : Instr} (hp : s.pending = [])
    (hi : s.inbox = p :: rest) (hd : decode p = .ok i) : step s = exec i { s with inbox := rest } := by
  simp [step, hp, hi, hd]

/-- Everything a step can do where it goes on: nothing, the request presented, or the next one of the call in
progress. -/
theorem step_cases (h : step s = .next t) :
    (s.pending = [] ∧ s.inbox = [] ∧ t = s) ∨
    (s.pending = [] ∧ ∃ p rest i, s.inbox = p :: rest ∧ decode p = .ok i ∧ exec i { s with inbox := rest } = .next t) ∨
    (∃ w rest u, s.pending = w :: rest ∧ exec w.instr { s with pending := rest } = .next u ∧
      ((u.results.getLast? = some .ok ∧ t = u) ∨ (u.results.getLast? ≠ some .ok ∧ t = u.dropPending))) := by
  unfold step at h
  split at h
  · rename_i w rest hp
    obtain ⟨u, hu, h⟩ := continueCall_eq_next h
    exact .inr (.inr ⟨w, rest, u, hp, hu, h⟩)
  · rename_i hp
    split at h
    · rename_i hi
      cases h
      exact .inl ⟨hp, hi, rfl⟩
    · rename_i p rest hi
      split at h
      · exact .inr (.inl ⟨hp, p, rest, _, hi, by assumption, h⟩)
      · cases h

end Sys2Proof.Machine
end

