-- ==== Sys2Proof/Laws/Exec.lean ====
section
/-! SUPPORT. What `exec` is for each instruction, in terms of the shared operations, true by rfl: with these and the
lemmas of Laws/Ops.lean no later proof unfolds `exec`, a meaning or a shared operation. -/

namespace Sys2Proof.Machine

variable (s : State)

theorem exec_setColumnAddress (col : Byte) : exec (.setColumnAddress col) s = (serveSetColumnAddress col s).outcome := rfl
theorem exec_readStatus (count : Nat) : exec (.readStatus count) s = (serveRead .refuse .readStatus count s).outcome := rfl
theorem exec_writeData (data : List Byte) : exec (.writeData data) s = (serveWriteData data s).outcome := rfl
theorem exec_readData (count : Nat) : exec (.readData count) s = (serveRead .refuse .readData count s).outcome := rfl
theorem exec_setcolLo (l : Nibble) : exec (.setcolLo l) s = wireByte .setColumnAddress (setcolLoByte l) s := rfl
theorem exec_setcolHi (h : Nibble) : exec (.setcolHi h) s = wireByte .setColumnAddress (setcolHiByte h) s := rfl
theorem exec_data (d : Byte) : exec (.data d) s = wireByte .writeData d s := rfl
theorem exec_configDefault : exec .configDefault s = (serveConfigDefault Config.defaultBase s).outcome := rfl
theorem exec_configPreset (sel : Preset) : exec (.configPreset sel) s = (serveConfigPreset sel s).outcome := rfl
theorem exec_configCustom (addr : Byte) : exec (.configCustom addr) s = (serveConfigCustom addr s).outcome := rfl
theorem exec_configUnassigned : exec .configUnassigned s = (serveConfigUnassigned s).outcome := rfl
theorem exec_reset : exec .reset s = .next s.resetBlock := rfl
theorem exec_drvNew : exec .drvNew s = (serveConfigDefault Config.defaultBase s.resetBlock).outcome := rfl
theorem exec_drvNewWithAddress (option : Preset) :
    exec (.drvNewWithAddress option) s = (serveConfigPreset option s.resetBlock).outcome := rfl
theorem exec_drvNewCustomAddress (address : Byte) :
    exec (.drvNewCustomAddress address) s = (serveConfigCustom address s.resetBlock).outcome := rfl
theorem exec_drvWriteData (data : List Byte) : exec (.drvWriteData data) s = (serveWriteData data s).outcome := rfl
theorem exec_drvSetColumnAddress (column : Nat) :
    exec (.drvSetColumnAddress column) s = (serveSetColumnMethod column s).outcome := rfl
theorem exec_drvDraw (x y : Int) (luma : Byte) : exec (.drvDraw x y luma) s = (serveDraw x y luma s).outcome := rfl
theorem exec_drvSize : exec .drvSize s = .next (s.record (.canvas canvasSize canvasSize)) := rfl

/-- DEFAULT_BASE is within its premise (spec/10_state.md R33; log 6). -/
theorem defaultBase_le : Config.defaultBase.toNat ≤ 0x7C := by
  have h := Config.defaultBaseChoice.isLt
  simp [Config.defaultBase]
  omega

/-- So the test of `CONFIG Default` on it never fires (spec/70_reset_and_hazards.md R151). -/
theorem defaultBase_within_premise : defaultBaseOutsidePremise Config.defaultBase = false := by
  simp [defaultBaseOutsidePremise, BitVec.ult, defaultBase_le]

end Sys2Proof.Machine
end

