-- ==== Sys2Proof/Laws/PerInstr.lean ====
section
/-! SUPPORT. Per-instruction lemmas, one per constructor of Instr.

`EncodeTag`: the first byte of an instruction's packet names its format (the table of Decode.lean), and the formats
of different levels of the opcode table never share it. -/

namespace Sys2Proof.Laws

/-- The first byte of the packet of each instruction: 0x00 + op for a request, 0x20 + mode for a configuration request,
a byte of the model's own elsewhere. -/
def EncodeTag.tag : Instr → Byte
  | .setColumnAddress _ => (opCode .setColumnAddress).setWidth 8
  | .readStatus _ => (opCode .readStatus).setWidth 8
  | .writeData _ => (opCode .writeData).setWidth 8
  | .readData _ => (opCode .readData).setWidth 8
  | .setcolLo _ => 0x30#8
  | .setcolHi _ => 0x30#8
  | .data _ => 0x31#8
  | .configDefault => 0x20#8 + 0b00#8
  | .configPreset _ => 0x20#8 + 0b01#8
  | .configCustom _ => 0x20#8 + 0b10#8
  | .configUnassigned => 0x20#8 + 0b11#8
  | .reset => 0x24#8
  | .drvNew => 0x40#8
  | .drvNewWithAddress _ => 0x41#8
  | .drvNewCustomAddress _ => 0x42#8
  | .drvWriteData _ => 0x43#8
  | .drvSetColumnAddress _ => 0x44#8
  | .drvDraw _ _ _ => 0x45#8
  | .drvSize => 0x46#8

/-- The packet of the instruction begins with its format's byte. -/
def EncodeTag.Statement (i : Instr) : Prop := (encode i).head? = some (EncodeTag.tag i)

theorem EncodeTag.setColumnAddress (col : Byte) : EncodeTag.Statement (.setColumnAddress col) := rfl
theorem EncodeTag.readStatus (count : Nat) : EncodeTag.Statement (.readStatus count) := rfl
theorem EncodeTag.writeData (data : List Byte) : EncodeTag.Statement (.writeData data) := rfl
theorem EncodeTag.readData (count : Nat) : EncodeTag.Statement (.readData count) := rfl
theorem EncodeTag.setcolLo (l : Nibble) : EncodeTag.Statement (.setcolLo l) := rfl
theorem EncodeTag.setcolHi (h : Nibble) : EncodeTag.Statement (.setcolHi h) := rfl
theorem EncodeTag.data (d : Byte) : EncodeTag.Statement (.data d) := rfl
theorem EncodeTag.configDefault : EncodeTag.Statement .configDefault := rfl
theorem EncodeTag.configPreset (sel : Preset) : EncodeTag.Statement (.configPreset sel) := rfl
theorem EncodeTag.configCustom (addr : Byte) : EncodeTag.Statement (.configCustom addr) := rfl
theorem EncodeTag.configUnassigned : EncodeTag.Statement .configUnassigned := rfl
theorem EncodeTag.reset : EncodeTag.Statement .reset := rfl
theorem EncodeTag.drvNew : EncodeTag.Statement .drvNew := rfl
theorem EncodeTag.drvNewWithAddress (option : Preset) : EncodeTag.Statement (.drvNewWithAddress option) := rfl
theorem EncodeTag.drvNewCustomAddress (address : Byte) : EncodeTag.Statement (.drvNewCustomAddress address) := rfl
theorem EncodeTag.drvWriteData (data : List Byte) : EncodeTag.Statement (.drvWriteData data) := rfl
theorem EncodeTag.drvSetColumnAddress (column : Nat) : EncodeTag.Statement (.drvSetColumnAddress column) := rfl
theorem EncodeTag.drvDraw (x y : Int) (luma : Byte) : EncodeTag.Statement (.drvDraw x y luma) := rfl
theorem EncodeTag.drvSize : EncodeTag.Statement .drvSize := rfl

/-- A natural number written into a packet is read back, with the bytes after it. -/
theorem decodeNat_encodeNatDigits (rest : List Byte) (fuel n : Nat) (h : n ≤ fuel) :
    decodeNat (encodeNatDigits fuel n ++ rest) = some (n, rest) := by
  induction fuel generalizing n with
  | zero =>
    obtain rfl : n = 0 := by omega
    simp [encodeNatDigits, decodeNat]
  | succ fuel ih =>
    unfold encodeNatDigits
    split
    · have : n % 256 = n := Nat.mod_eq_of_lt (by omega)
      simp [decodeNat, *]
    · have hd : (128 + n % 128) % 256 = 128 + n % 128 := Nat.mod_eq_of_lt (by omega)
      have hn := ih (n / 128) (by omega)
      simp [decodeNat, hd, hn]
      omega

/-- A natural number written into a packet is read back. -/
theorem decodeNat_encodeNat (n : Nat) (rest : List Byte) : decodeNat (encodeNat n ++ rest) = some (n, rest) :=
  decodeNat_encodeNatDigits rest n n (Nat.le_refl n)

/-- An integer written into a packet is read back. -/
theorem decodeInt_encodeInt (x : Int) (rest : List Byte) : decodeInt (encodeInt x ++ rest) = some (x, rest) := by
  cases x <;> simp [encodeInt, decodeInt, decodeNat_encodeNat]

end Sys2Proof.Laws
end

