-- ==== Sys2Proof/Laws/Run.lean ====
section
/-! SUPPORT. Runs of several steps: the unfolding of the host's `Core.run`, once, so that an induction over a run
splits one step off. -/

namespace Sys2Proof.Machine

/-- A run of `k + 1` steps is one step and a run of `k` steps. -/
theorem core_run_succ (M : Host.Core) (k : Nat) (s : M.State) :
    M.run (k + 1) s =
      (match M.step s with
      | .next s' => M.run k s'
      | .fault f => .fault f
      | .refused why => .refused why) := rfl

/-- Where a run of `k + 1` steps goes on, its first step does, and the rest of the run from there. -/
theorem core_run_eq_next {M : Host.Core} {k : Nat} {s t : M.State} (h : M.run (k + 1) s = .next t) :
    ∃ s', M.step s = .next s' ∧ M.run k s' = .next t := by
  rw [core_run_succ] at h
  split at h
  · exact ⟨_, by assumption, h⟩
  · cases h
  · cases h

/-- A run whose first step goes on is the rest of the run; one whose first step stops has stopped. -/
theorem core_run_of_next {M : Host.Core} {k : Nat} {s s' : M.State} (h : M.step s = .next s') :
    M.run (k + 1) s = M.run k s' := by
  rw [core_run_succ, h]

theorem core_run_of_fault {M : Host.Core} {k : Nat} {s : M.State} {f : M.Fault} (h : M.step s = .fault f) :
    M.run (k + 1) s = .fault f := by
  rw [core_run_succ, h]

/-- The same for this machine. -/
theorem run_of_next {k : Nat} {s s' : State} (h : step s = .next s') :
    Sys2Proof.core.run (k + 1) s = Sys2Proof.core.run k s' :=
  core_run_of_next (M := Sys2Proof.core) h

theorem run_of_fault {k : Nat} {s : State} {f : Fault} (h : step s = .fault f) :
    Sys2Proof.core.run (k + 1) s = .fault f :=
  core_run_of_fault (M := Sys2Proof.core) h

/-- The same for this machine. -/
theorem run_eq_next {k : Nat} {s t : State} (h : Sys2Proof.core.run (k + 1) s = .next t) :
    ∃ s', step s = .next s' ∧ Sys2Proof.core.run k s' = .next t :=
  core_run_eq_next (M := Sys2Proof.core) h

end Sys2Proof.Machine
end

