-- ==== Sys2Proof/Tests/Slice0.lean ====
section
/-! SUPPORT. The author's own tests. Expected values come from spec/95_test_vectors.md (each theorem names its vector) or
are worked out by hand from the encoding rules. `witness_<Name>` shows that the hypotheses of Obligations.<Name> can be
met, one conjunct per clause. -/

namespace Sys2Proof.Tests

open Sys2Proof.Machine

/-- A state with this CFG, BASE and answers, everything else as after reset. -/
def st (cfg : Cfg) (base : Byte) (answers : List Config.BusAnswer := []) : State :=
  { State.reset with cfg := cfg, base := base, answers := answers }

/-- The same with a bus write of these bytes to this register in flight. -/
def writing (s : State) (reg : RegAddr) (bytes : List Byte) : State := s.startTransfer reg bytes

/-- The state an outcome goes on with. -/
def next? : Host.Outcome State Fault Refusal → Option State
  | .next s => some s
  | .fault _ => none
  | .refused _ => none

/-- A bus error for tests. -/
def e1 : Config.BusError := ⟨1⟩

/-! ## Well-formedness: each check refuses an ill-formed term -/

theorem test_wf_refuses_readStatus_with_count : wellFormed (.readStatus 1) = false := by decide
theorem test_wf_refuses_readData_with_count : wellFormed (.readData 2) = false := by decide

/-! ## Decoding: a word of every constructor, written out bit by bit (codes of spec/30_encoding.md R62 to R64) -/

theorem test_decode_setColumnAddress : decode [0b00000000#8, 0b00011111#8] = .ok (.setColumnAddress 0x1F#8) := by decide
theorem test_decode_readStatus : decode [0b00000001#8, 0x00#8] = .ok (.readStatus 0) := by decide
theorem test_decode_writeData : decode [0b00000010#8, 0x00#8, 0xFF#8, 0x00#8] = .ok (.writeData [0xFF#8, 0x00#8]) := by decide
theorem test_decode_readData : decode [0b00000011#8, 0x00#8] = .ok (.readData 0) := by decide
theorem test_decode_setcolLo : decode [0x30#8, 0b00001111#8] = .ok (.setcolLo 0xF#4) := by decide
theorem test_decode_setcolLo_bare : decode [0b00000101#8] = .ok (.setcolLo 0x5#4) := by decide
theorem test_decode_setcolHi : decode [0b00010001#8] = .ok (.setcolHi 0x1#4) := by decide
theorem test_decode_data : decode [0x31#8, 0b10100101#8] = .ok (.data 0xA5#8) := by decide
theorem test_decode_configDefault : decode [0b00100000#8, 0x00#8, 0x00#8] = .ok .configDefault := by decide
theorem test_decode_configPreset : decode [0b00100001#8, 0b00000010#8, 0x00#8] = .ok (.configPreset .C) := by decide
theorem test_decode_configCustom : decode [0b00100010#8, 0x00#8, 0x7A#8] = .ok (.configCustom 0x7A#8) := by decide
theorem test_decode_configUnassigned : decode [0b00100011#8, 0x00#8, 0x00#8] = .ok .configUnassigned := by decide
theorem test_decode_reset : decode [0x24#8] = .ok .reset := by decide
theorem test_decode_drvNew : decode [0x40#8] = .ok .drvNew := by decide
theorem test_decode_drvNewWithAddress : decode [0x41#8, 0x03#8] = .ok (.drvNewWithAddress .D) := by decide
theorem test_decode_drvNewCustomAddress : decode [0x42#8, 0x3C#8] = .ok (.drvNewCustomAddress 0x3C#8) := by decide
theorem test_decode_drvWriteData : decode [0x43#8, 0x01#8, 0x02#8] = .ok (.drvWriteData [0x01#8, 0x02#8]) := by decide
theorem test_decode_drvSetColumnAddress : decode [0x44#8, 0x9F#8, 0x02#8] = .ok (.drvSetColumnAddress 0x011F) := by decide
theorem test_decode_drvDraw :
    decode [0x45#8, 0x01#8, 0x00#8, 0x00#8, 0x3F#8, 0x80#8] = .ok (.drvDraw (-1) 63 0x80#8) := by decide
theorem test_decode_drvSize : decode [0x46#8] = .ok .drvSize := by decide

/-- No byte of 0x20 to 0xFF appears on the command channel (R71). -/
theorem test_decode_rejects_command_byte_0x20 : decode [0x30#8, 0x20#8] = .error (.notACommandByte 0x20#8) := by decide
theorem test_decode_rejects_unknown_format : decode [0x99#8] = .error (.unknownFormat 0x99#8) := by decide
theorem test_table_word_writeData : decodeTableWord 8 2 = some (.writeData []) := by decide
theorem test_table_word_setcolHi : decodeTableWord 8 0x1C = some (.setcolHi 0xC#4) := by decide

/-- The table's word of WriteData runs as the first instruction after reset: Refused(NotOperational) (V-ERR-2). -/
theorem test_fetch_word_runs_first :
    (next? (step (State.reset.withFetchWord 8 2))).map (·.results) = some [.refused .notOperational] := by decide

/-! ## Meanings -/

/-- V-COL-10. -/
theorem test_setColumnAddress_A5 :
    (next? (exec (.setColumnAddress 0xA5#8) (st .operational 0x74#8 [.ok]))).map (fun t => (t.trace, t.devCol)) =
      some ([.write 0x74#7 [0x05#8, 0x1A#8]], some 0xA5#8) := by decide
/-- V-ERR-7. -/
theorem test_setColumnAddress_error :
    (next? (exec (.setColumnAddress 0x2A#8) (st .operational 0x74#8 [.err e1]))).map
      (fun t => (t.trace, t.results, t.devCol, t.cfg)) =
      some ([.write 0x74#7 [0x0A#8, 0x12#8]], [.err e1], none, .operational) := by decide
/-- P5, step 4: BASE = 0x72, addition and not a bitwise or. -/
theorem test_writeData_address_is_a_sum :
    (next? (exec (.writeData [0xAA#8]) (st .operational 0x72#8 [.ok]))).map (·.trace) =
      some [.write 0x74#7 [0xAA#8]] := by decide
/-- V-DATA-1: the empty payload is one bus write. -/
theorem test_writeData_empty :
    (next? (exec (.writeData []) (st .operational 0x74#8 [.ok]))).map (fun t => (t.trace, t.results)) =
      some ([.write 0x76#7 []], [.ok]) := by decide
/-- R157: any WriteData, a refused one too, leaves the device's column unknown; a refused SetColumnAddress does not. -/
theorem test_refused_writeData_forgets_column :
    (next? (exec (.writeData []) ((st .unconfigured 0x74#8).selectColumn 0x05#8))).map (·.devCol) = some none ∧
    (next? (exec (.setColumnAddress 0x06#8) ((st .unconfigured 0x74#8).selectColumn 0x05#8))).map (·.devCol) =
      some (some 0x05#8) := by decide
/-- V-ERR-4. -/
theorem test_readStatus_reserved :
    (next? (exec (.readStatus 0) (st .operational 0x74#8))).map (fun t => (t.trace, t.results)) =
      some ([], [.refused .reservedOperation]) := by decide
/-- V-ERR-6: CFG is checked before the operation type. -/
theorem test_readStatus_checks_cfg_first :
    (next? (exec (.readStatus 0) State.reset)).map (·.results) = some [.refused .notOperational] := by decide
/-- V-ERR-5. -/
theorem test_readData_reserved :
    (next? (exec (.readData 0) (st .operational 0x74#8))).map (·.results) =
      some [.refused .reservedOperation] := by decide
/-- V-MUX-32: offset 3 of BASE = 0x3D. -/
theorem test_readData_address : effectiveAddress 0x3D#8 .readData = 0x40#7 := by decide
/-- R64: SETCOL.LO of the low nibble 0xF, first byte of a pair. -/
theorem test_setcolLo :
    (next? (exec (.setcolLo 0xF#4) (writing (st .operational 0x72#8) 0x72#7 [0x0F#8, 0x11#8]))).map
      (fun t => (t.received, t.inFlight)) = some ([⟨0x72#7, 0x0F#8⟩], some ⟨0x72#7, [0x11#8]⟩) := by decide
/-- R68: a lone half reaches nothing. -/
theorem test_setcolLo_alone : next? (exec (.setcolLo 0xF#4) (st .operational 0x72#8)) = some (st .operational 0x72#8) := by
  decide
/-- R64: SETCOL.HI has bit 4 set. -/
theorem test_setcolHi :
    (next? (exec (.setcolHi 0x1#4) (writing (st .operational 0x72#8) 0x72#7 [0x11#8]))).map (·.received) =
      some [⟨0x72#7, 0x11#8⟩] := by decide
/-- R68: never in the other order. -/
theorem test_setcolHi_not_first :
    (next? (exec (.setcolHi 0x1#4) (writing (st .operational 0x72#8) 0x72#7 [0x0F#8, 0x11#8]))).map (·.received) =
      some [] := by decide
/-- R65: DATA is unchanged, on BASE + 2. -/
theorem test_data : (next? (exec (.data 0xA5#8) (writing (st .operational 0x72#8) 0x74#7 [0xA5#8]))).map (·.received) =
    some [⟨0x74#7, 0xA5#8⟩] := by decide
/-- R41: the channel of DATA is not BASE + 0. -/
theorem test_data_wrong_channel :
    (next? (exec (.data 0xA5#8) (writing (st .operational 0x72#8) 0x72#7 [0xA5#8]))).map (·.received) = some [] := by decide
/-- V-CFG-1. -/
theorem test_configDefault : exec .configDefault State.reset =
    .next ((State.reset.loadBase Config.defaultBase).record .ok) := by
  simp [exec_configDefault, serveConfigDefault, whenUnconfigured, State.isUnconfigured, State.reset,
    defaultBase_within_premise, Served.outcome]
/-- V-CFG-19: DEFAULT_BASE = 0x7D is outside the premise. -/
theorem test_configDefault_outside_premise :
    serveConfigDefault 0x7D#8 State.reset = .done (.refused .badConfigRequest) State.reset := by decide
/-- V-CFG-12. -/
theorem test_configPreset_C : (next? (exec (.configPreset .C) State.reset)).map (fun t => (t.base, t.cfg)) =
    some (0x7C#8, .operational) := by decide
/-- V-CFG-13: D is smaller than C. -/
theorem test_configPreset_D : (next? (exec (.configPreset .D) State.reset)).map (·.base) = some 0x78#8 := by decide
/-- V-CFG-4. -/
theorem test_configCustom_7A :
    (next? (exec (.configCustom 0x7A#8) State.reset)).map (fun t => (t.base, t.cfg, t.results)) =
      some (0x7A#8, .operational, [.ok]) := by decide
/-- V-CFG-5. -/
theorem test_configCustom_7B :
    (next? (exec (.configCustom 0x7B#8) State.reset)).map (fun t => (t.cfg, t.results)) =
      some (.configFault, [.configError]) := by decide
/-- V-CFG-18: refused, and the one load is not used up. -/
theorem test_configUnassigned :
    (next? (exec .configUnassigned State.reset)).map (fun t => (t.cfg, t.results)) =
      some (.unconfigured, [.refused .badConfigRequest]) := by decide
/-- V-CFG-17: reset leaves ConfigFault. -/
theorem test_reset_leaves_configFault : (next? (exec .reset (st .configFault 0x00#8))).map (·.cfg) =
    some .unconfigured := by decide
/-- R111 from an Operational block. -/
theorem test_drvNew : exec .drvNew (st .operational 0x3C#8) =
    .next (((st .operational 0x3C#8).resetBlock.loadBase Config.defaultBase).record .ok) := by
  simp [exec_drvNew, serveConfigDefault, whenUnconfigured, State.isUnconfigured, defaultBase_within_premise,
    Served.outcome]
/-- R112, its example. -/
theorem test_drvNewWithAddress_B :
    (next? (exec (.drvNewWithAddress .B) (st .configFault 0x00#8))).map (fun t => (t.base, t.cfg, t.results)) =
      some (0x74#8, .operational, [.ok]) := by decide
/-- R113, its examples. -/
theorem test_drvNewCustomAddress_3C :
    (next? (exec (.drvNewCustomAddress 0x3C#8) State.reset)).map (fun t => (t.base, t.cfg)) =
      some (0x3C#8, .operational) := by decide
theorem test_drvNewCustomAddress_7E :
    (next? (exec (.drvNewCustomAddress 0x7E#8) State.reset)).map (fun t => (t.cfg, t.results)) =
      some (.configFault, [.configError]) := by decide
/-- V-DRV-16. -/
theorem test_drvWriteData : (next? (exec (.drvWriteData [0xFF#8, 0x00#8]) (st .operational 0x74#8 [.ok]))).map (·.trace) =
    some [.write 0x76#7 [0xFF#8, 0x00#8]] := by decide
/-- V-DRV-13. -/
theorem test_drvSetColumnAddress_1F :
    (next? (exec (.drvSetColumnAddress 0x1F) (st .operational 0x74#8 [.ok]))).map (·.trace) =
      some [.write 0x74#7 [0x0F#8, 0x11#8]] := by decide
/-- V-DRV-15: refused, never truncated. -/
theorem test_drvSetColumnAddress_011F :
    (next? (exec (.drvSetColumnAddress 0x011F) (st .operational 0x74#8 [.ok]))).map (fun t => (t.trace, t.results)) =
      some ([], [.refused .columnOutOfRange]) := by decide
/-- V-DRV-8: the column is x, not y; the data write follows in a step of its own. -/
theorem test_drvDraw_63_0 :
    (next? (Sys2Proof.core.run 2 { st .operational 0x72#8 [.ok, .ok] with
      inbox := [[0x45#8, 0x00#8, 0x3F#8, 0x00#8, 0x00#8, 0x01#8]] })).map (·.trace) =
      some [.write 0x72#7 [0x0F#8, 0x13#8], .write 0x74#7 (Config.pixelEncode 63 0 0x01#8)] := rfl
/-- V-DRV-12: a failed column write is followed by no data write. -/
theorem test_drvDraw_column_error :
    (next? (exec (.drvDraw 5 5 0x01#8) (st .operational 0x74#8 [.err e1, .ok]))).map
      (fun t => (t.trace, t.results, t.pending)) = some ([.write 0x74#7 [0x05#8, 0x10#8]], [.err e1], []) := by decide
/-- V-DRV-17. -/
theorem test_drvSize : (next? (exec .drvSize State.reset)).map (fun t => (t.trace, t.results)) =
    some ([], [.canvas 64 64]) := by decide

/-! ## Witnesses -/

theorem witness_EffectiveAddressIsTheExactSum : BaseFits (st .operational 0x7C#8) ∧ (st .operational 0x7C#8).cfg = .operational :=
  ⟨fun _ => by decide, rfl⟩
theorem witness_ColumnEncodingIsInvertible :
    setColumnPayload 0xF0#8 = setColumnPayload 0xF0#8 ∧ setColumnPayload 0xF0#8 = [0x00#8, 0x1F#8] := by decide
theorem witness_CustomBaseIsValidBelow7B : customBaseValid 0x7A#8 = true ∧ State.reset.cfg = .unconfigured := by decide
theorem witness_PresetBasesAreLoadedUnchecked : State.reset.cfg = .unconfigured := rfl
theorem witness_SetColumnAddressWritesOnePair :
    State.reset.cfg ≠ .operational ∧
    ((st .operational 0x7C#8 [.ok]).cfg = .operational ∧ (st .operational 0x7C#8 [.ok]).nextAnswer = .ok) ∧
    ((st .operational 0x00#8 [.err e1]).cfg = .operational ∧ (st .operational 0x00#8 [.err e1]).nextAnswer = .err e1) := by
  decide
theorem witness_WriteDataForwardsItsBytes :
    State.reset.cfg ≠ .operational ∧
    ((st .operational 0x7C#8 [.ok]).cfg = .operational ∧ (st .operational 0x7C#8 [.ok]).nextAnswer = .ok) ∧
    ((st .operational 0x00#8 [.err e1]).cfg = .operational ∧ (st .operational 0x00#8 [.err e1]).nextAnswer = .err e1) :=
  witness_SetColumnAddressWritesOnePair
theorem witness_ReadStatusIsReserved :
    (st .operational 0x74#8).cfg = .operational ∧ State.reset.cfg ≠ .operational ∧
    (st .operational 0x7C#8 [.ok]).nextAnswer = .ok ∧ (st .operational 0x00#8 [.err e1]).nextAnswer = .err e1 := by decide
theorem witness_ReadDataIsReserved :
    (st .operational 0x74#8).cfg = .operational ∧ State.reset.cfg ≠ .operational ∧
    (st .operational 0x7C#8 [.ok]).nextAnswer = .ok ∧ (st .operational 0x00#8 [.err e1]).nextAnswer = .err e1 :=
  witness_ReadStatusIsReserved
theorem witness_OperationsAreRefusedUnlessOperational :
    (st .configFault 0x74#8).cfg ≠ .operational ∧
    Instr.readData 0 ∈ [Instr.setColumnAddress 0#8, .readStatus 0, .readData 0] := by decide
theorem witness_NothingReachesTheBusUnlessOperational :
    (State.reset.cfg ≠ .operational ∧
      exec (.configPreset .A) State.reset = .next ((State.reset.loadBase 0x70#8).record .ok) ∧
      ∀ data, Instr.configPreset .A ≠ .writeData data ∧ Instr.configPreset .A ≠ .drvWriteData data) ∧
    (exec (.writeData []) State.reset = .next (State.reset.forgetColumn.record (.refused .notOperational)) ∧
      ∃ data, Instr.writeData [] = .writeData data ∨ Instr.writeData [] = .drvWriteData data) :=
  ⟨⟨by decide, rfl, fun _ => ⟨nofun, nofun⟩⟩, rfl, [], .inl rfl⟩
theorem witness_EveryInstructionKeepsToItsChannels : ∃ t, exec (.writeData [0x55#8]) (st .operational 0x7A#8 [.ok]) = .next t :=
  ⟨_, rfl⟩
theorem witness_BusOperationsDependOnBaseAndCfgAlone :
    (st .operational 0x70#8 [.ok]).base = (st .operational 0x70#8 [.err e1]).base ∧
    (st .operational 0x70#8 [.ok]).cfg = (st .operational 0x70#8 [.err e1]).cfg ∧
    (∃ t, exec (.setColumnAddress 0x01#8) (st .operational 0x70#8 [.ok]) = .next t) ∧
    (∃ t, exec (.setColumnAddress 0x01#8) (st .operational 0x70#8 [.err e1]) = .next t) :=
  ⟨rfl, rfl, ⟨_, rfl⟩, ⟨_, rfl⟩⟩
theorem witness_AnUnansweredBusIsTheOnlyStop :
    ((st .operational 0x70#8 [.never]).cfg = .operational ∧ (st .operational 0x70#8 [.never]).nextAnswer = .never ∧
      255 ≤ 255 ∧ (0 : Int) ≤ 0 ∧ (63 : Int) ≤ 63 ∧
      Instr.drvDraw 0 63 0x01#8 ∈ [Instr.setColumnAddress 0#8, .writeData [], .drvWriteData [], .drvSetColumnAddress 255,
        .drvDraw 0 63 0x01#8]) ∧
    ((st .operational 0x70#8 [.never]).await (.dataWrite [])).pending = .dataWrite [] :: [] ∧
    (((st .operational 0x70#8 [.ok]).await (.dataWrite [])).pending ≠ [] ∧
      BusLive ((st .operational 0x70#8 [.ok]).await (.dataWrite []))) ∧
    step ((st .operational 0x70#8 [.never]).await (.dataWrite [])) = .fault .busNeverAnswers ∧
    step { State.reset with inbox := [[]] } = .refused (.undecodable .emptyPacket) :=
  ⟨by decide, rfl, ⟨nofun, by simp [BusLive, st, State.nextAnswer]⟩, rfl, rfl⟩
theorem witness_WireBytesReachTheirChannel :
    (writing (st .operational 0x7C#8) 0x7C#7 [0x0F#8, 0x11#8]).inFlight =
      some ⟨((0x7C#8 : Byte) + 0#8).setWidth 7, (0#4 ++ 0xF#4) :: [0x11#8]⟩ ∧
    (writing (st .operational 0x00#8) 0x00#7 [0x11#8]).inFlight =
      some ⟨((0x00#8 : Byte) + 0#8).setWidth 7, (1#4 ++ 0x1#4) :: []⟩ ∧
    (writing (st .operational 0x7C#8) 0x7E#7 [0xFF#8]).inFlight =
      some ⟨((0x7C#8 : Byte) + 2#8).setWidth 7, 0xFF#8 :: []⟩ ∧
    (st .operational 0x7C#8).cfg = .operational ∧ (st .operational 0x7C#8).inFlight = none ∧
    State.reset.cfg ≠ .operational := by decide
theorem witness_CommandsDeliverTheirWireBytes :
    (st .operational 0x7C#8 [.ok]).cfg = .operational ∧ (st .operational 0x7C#8 [.ok]).nextAnswer = .ok := by decide
theorem witness_ConfigDefaultLoadsDefaultBase :
    State.reset.cfg = .unconfigured ∧ (st .operational 0x70#8).cfg ≠ .unconfigured ∧ (0x7C#8).toNat ≤ 0x7C ∧
    0x7C < (0x7D#8).toNat := by decide
theorem witness_ConfigPresetLoadsItsBase : State.reset.cfg = .unconfigured ∧ (st .configFault 0x70#8).cfg ≠ .unconfigured := by
  decide
theorem witness_ConfigCustomLoadsOrFaults :
    (State.reset.cfg = .unconfigured ∧ (0x7A#8).toNat < 0x7B) ∧ (State.reset.cfg = .unconfigured ∧ 0x7B ≤ (0x7B#8).toNat) ∧
    (st .operational 0x70#8).cfg ≠ .unconfigured := by decide
theorem witness_OneConfigurationLoadPerReset :
    (st .configFault 0x70#8).cfg ≠ .unconfigured ∧
    Instr.configDefault ∈ [Instr.configDefault, .configPreset .A, .configCustom 0#8] ∧
    ((st .operational 0x70#8).cfg = .operational ∧ resetsBlock (.configPreset .B) = false ∧
      ∃ t, exec (.configPreset .B) (st .operational 0x70#8) = .next t) := ⟨by decide, by decide, rfl, rfl, _, rfl⟩
theorem witness_ConfigErrorComesFromCustomOnly :
    (State.reset.cfg = .unconfigured ∧ 0x7B ≤ (0xFF#8).toNat) ∧
    (exec (.configCustom 0xFF#8) State.reset = .next (State.reset.raiseConfigError.record .configError) ∧
      (State.reset.raiseConfigError.record .configError).cfg = .configFault ∧ State.reset.cfg ≠ .configFault) :=
  ⟨by decide, rfl, rfl, by decide⟩
theorem witness_ResetIsTheOnlyWayOut :
    (st .configFault 0x70#8).cfg ≠ .unconfigured ∧ resetsBlock .drvSize = false ∧
    ∃ t, exec .drvSize (st .configFault 0x70#8) = .next t := ⟨by decide, rfl, _, rfl⟩
theorem witness_BaseIsWrittenByLoadsOnly :
    exec (.configPreset .A) State.reset = .next ((State.reset.loadBase 0x70#8).record .ok) ∧
    ((State.reset.loadBase 0x70#8).record .ok).base ≠ State.reset.base ∧ resetsBlock (.configPreset .A) = false :=
  ⟨rfl, by decide, rfl⟩
theorem witness_BaseIsUnreadableUntilLoaded :
    State.reset.cfg ≠ .operational ∧
    exec (.configPreset .A) State.reset = .next ((State.reset.loadBase 0x70#8).record .ok) ∧
    ((State.reset.loadBase 0x70#8).record .ok).cfg = .operational := ⟨by decide, rfl, rfl⟩
theorem witness_ResetStateIsUnconfigured :
    Instr.readData 0 ∈ [Instr.setColumnAddress 0#8, .readStatus 0, .writeData [], .readData 0] := by decide
theorem witness_NewCustomAddressChecksTheBase : (0x7A#8).toNat < 0x7B ∧ 0x7B ≤ (0x7B#8).toNat := by decide
theorem witness_WriteDataMethodDelegates :
    ((st .operational 0x7C#8 [.ok]).cfg = .operational ∧ (st .operational 0x7C#8 [.ok]).nextAnswer = .ok) ∧
    ((st .operational 0x00#8 [.err e1]).cfg = .operational ∧ (st .operational 0x00#8 [.err e1]).nextAnswer = .err e1) := by
  decide
theorem witness_SetColumnMethodNeverTruncates :
    255 ≤ 255 ∧ ((st .operational 0x7C#8 [.ok]).cfg = .operational ∧ (st .operational 0x7C#8 [.ok]).nextAnswer = .ok) ∧
    256 ≤ 256 := by decide
theorem witness_DrawSelectsTheColumnThenWrites :
    ((0 : Int) ≤ 63 ∧ (63 : Int) ≤ 63 ∧ (0 : Int) ≤ 0 ∧ (st .operational 0x72#8 [.ok]).cfg = .operational ∧
      (st .operational 0x72#8 [.ok]).nextAnswer = .ok) ∧
    (st .operational 0x72#8 [.ok, .ok]).pending = [] ∧
    ({ st .operational 0x72#8 [.ok, .ok] with inbox := [encode (.drvDraw 63 0 0x01#8)] } : State).inbox =
      encode (.drvDraw 63 0 0x01#8) :: [] ∧
    decode (encode (.drvDraw 63 0 0x01#8)) = .ok (.drvDraw 63 0 0x01#8) ∧
    (st .operational 0x72#8 [.ok, .ok]).answers = .ok :: .ok :: [] ∧
    (st .operational 0x72#8 [.ok, .never]).answers = .ok :: .never :: [] := by decide
theorem witness_DrawOutOfBoundsDoesNothing : (-1 : Int) < 0 ∧ (64 : Int) ≤ 64 := by decide
theorem witness_DrawStopsAtTheFirstError :
    ((0 : Int) ≤ 5 ∧ (5 : Int) ≤ 63 ∧ (st .operational 0x74#8 [.err e1]).cfg = .operational ∧
      (st .operational 0x74#8 [.err e1]).nextAnswer = .err e1 ∧ (st .configFault 0x74#8).cfg ≠ .operational) ∧
    ((st .operational 0x74#8 [.err e1]).await (.dataWrite [0x01#8])).pending = .dataWrite [0x01#8] :: [] ∧
    (∃ t, exec (Pending.dataWrite [0x01#8]).instr { (st .operational 0x74#8 [.err e1]) with pending := [] } = .next t ∧
      t.results.getLast? ≠ some .ok) ∧
    (∃ t, exec (Pending.dataWrite [0x01#8]).instr { (st .operational 0x74#8 [.ok]) with pending := [] } = .next t ∧
      t.results.getLast? = some .ok) ∧
    (∃ t, drawPixel ⟨5, 5, 0x01#8⟩ (st .operational 0x74#8 [.err e1]) = .done (.err e1) t) ∧
    (∃ t, drawPixel ⟨64, 5, 0x01#8⟩ (st .operational 0x74#8) = .done .ok t) :=
  ⟨by decide, rfl, ⟨_, rfl, by decide⟩, ⟨_, rfl, by decide⟩, ⟨_, rfl⟩, ⟨_, rfl⟩⟩
theorem witness_PixelSequencesAreNotBatched :
    (st .operational 0x72#8 [.ok, .ok, .never]).cfg = .operational ∧
    (st .operational 0x72#8 [.ok, .ok, .never]).answers =
      List.replicate (([⟨0, 0, 0xFF#8⟩, ⟨64, 10, 0x80#8⟩] : List Pixel).flatMap (pixelOperations 0x72#8)).length .ok ++ [.never] :=
  ⟨rfl, rfl⟩
theorem witness_DrawingCallsRunStepByStep : (st .operational 0x72#8 [.ok, .never]).pending = [] := rfl
theorem witness_StepServesThePresentedRequest :
    decode [0x46#8] = .ok .drvSize ∧ State.reset.inbox = [] ∧ State.reset.pending = [] ∧ decode [] = .error .emptyPacket ∧
    ({ State.reset with inbox := [[0x46#8]] } : State).inbox = [0x46#8] :: [] ∧
    ({ State.reset with inbox := [[]] } : State).inbox = [] :: [] ∧
    (State.reset.await (.dataWrite [])).pending = .dataWrite [] :: [] ∧
    exec (Pending.dataWrite []).instr { State.reset with pending := [] } =
      .next (State.reset.forgetColumn.record (.refused .notOperational)) ∧
    exec (Pending.dataWrite []).instr { st .operational 0x70#8 [.never] with pending := [] } = .fault .busNeverAnswers :=
  ⟨by decide, rfl, rfl, rfl, rfl, rfl, rfl, rfl, rfl⟩
theorem witness_EachStepMakesAtMostOneBusWrite :
    (st .operational 0x70#8 [.ok]).inFlight = none ∧
    ∃ t, step { st .operational 0x70#8 [.ok] with inbox := [[0x00#8, 0x1F#8]] } = .next t := ⟨rfl, _, rfl⟩
theorem witness_DecodeInvertsEncode : wellFormed (.drvDraw (-129) 300 0x01#8) = true := by decide
theorem witness_DecodedInstructionsAreWellFormed : decode [0x01#8, 0x00#8, 0x07#8] = .ok (.readStatus 0) := by decide
theorem witness_EveryStepKeepsTheInvariant :
    MachineInvariant State.reset ∧ step State.reset = .next State.reset ∧
    ∃ t, step { st .operational 0x7C#8 [.ok] with inbox := [[0x00#8, 0x1F#8]] } = .next t ∧
      MachineInvariant { st .operational 0x7C#8 [.ok] with inbox := [[0x00#8, 0x1F#8]] } := by
  refine ⟨?_, rfl, _, rfl, ?_⟩ <;> simp [MachineInvariant, BaseFits, OnlyWrites, ColumnFromTrace, NothingOutstanding, State.reset, st]
theorem witness_ConfigFaultIsSilentUntilReset :
    (st .configFault 0x00#8).cfg = .configFault ∧ NoResetAhead { st .configFault 0x00#8 with inbox := [[0x02#8, 0x00#8, 0x01#8]] } ∧
    ∃ t, Sys2Proof.core.run 1 { st .configFault 0x00#8 with inbox := [[0x02#8, 0x00#8, 0x01#8]] } = .next t := by
  refine ⟨rfl, ?_, _, rfl⟩
  intro p hp i hi
  obtain rfl : p = [0x02#8, 0x00#8, 0x01#8] := List.mem_singleton.1 hp
  cases hi
  rfl
theorem witness_OperationalRunsKeepTheirBase :
    (st .operational 0x72#8 [.ok]).cfg = .operational ∧
    NoResetAhead { st .operational 0x72#8 [.ok] with inbox := [[0x02#8, 0x00#8, 0x01#8]] } ∧
    ∃ t, Sys2Proof.core.run 1 { st .operational 0x72#8 [.ok] with inbox := [[0x02#8, 0x00#8, 0x01#8]] } = .next t := by
  refine ⟨rfl, ?_, _, rfl⟩
  intro p hp i hi
  obtain rfl : p = [0x02#8, 0x00#8, 0x01#8] := List.mem_singleton.1 hp
  cases hi
  rfl

end Sys2Proof.Tests
end

section
/-! The bus traffic of one step (O47). `SameTraffic` and `BusWriteIssued` are the only two things that serving a request
can do to what passes over the bus; the rule is proved once for each shared operation, lifted to every instruction, and
then to the step. -/

namespace Sys2Proof.Machine

variable {s t u : State} {r : Result}

/-! ### The addresses and payloads of the two commands -/

theorem effectiveAddress_setColumnAddress (base : Byte) :
    effectiveAddress base .setColumnAddress = base.setWidth 7 := by
  simp [effectiveAddress, addressSum, offsetOf]

theorem effectiveAddress_writeData (base : Byte) :
    effectiveAddress base .writeData = (base + 2#8).setWidth 7 := rfl

/-- The column pair goes to the command channel (spec/30_encoding.md R71). -/
theorem onChannels_setColumnAddress (base col : Byte) :
    OnChannels base (.write (effectiveAddress base .setColumnAddress) (setColumnPayload col)) :=
  .inl ⟨lowNibble col, highNibble col, by rw [effectiveAddress_setColumnAddress]; rfl⟩

/-- A data payload goes to the data channel (spec/30_encoding.md R71). -/
theorem onChannels_writeData (base : Byte) (data : List Byte) :
    OnChannels base (.write (effectiveAddress base .writeData) data) :=
  .inr ⟨data, by rw [effectiveAddress_writeData]⟩

/-! ### States between which nothing passes over the bus -/

/-- Neither the bus nor the requester sees a difference between the two states. -/
structure SameTraffic (s t : State) : Prop where
  inFlight : t.inFlight = s.inFlight
  trace : t.trace = s.trace
  received : t.received = s.received
  results : t.results = s.results

theorem SameTraffic.refl (s : State) : SameTraffic s s := ⟨rfl, rfl, rfl, rfl⟩

theorem SameTraffic.trans (h : SameTraffic s t) (h' : SameTraffic t u) : SameTraffic s u :=
  ⟨h'.inFlight.trans h.inFlight, h'.trace.trans h.trace, h'.received.trans h.received, h'.results.trans h.results⟩

theorem sameTraffic_selectColumn (s : State) (col : Byte) : SameTraffic s (s.selectColumn col) := ⟨rfl, rfl, rfl, rfl⟩
theorem sameTraffic_forgetColumn (s : State) : SameTraffic s s.forgetColumn := ⟨rfl, rfl, rfl, rfl⟩
theorem sameTraffic_loadBase (s : State) (b : Byte) : SameTraffic s (s.loadBase b) := ⟨rfl, rfl, rfl, rfl⟩
theorem sameTraffic_raiseConfigError (s : State) : SameTraffic s s.raiseConfigError := ⟨rfl, rfl, rfl, rfl⟩
theorem sameTraffic_resetBlock (s : State) : SameTraffic s s.resetBlock := ⟨rfl, rfl, rfl, rfl⟩
theorem sameTraffic_await (s : State) (w : Pending) : SameTraffic s (s.await w) := ⟨rfl, rfl, rfl, rfl⟩
theorem sameTraffic_dropPending (s : State) : SameTraffic s s.dropPending := ⟨rfl, rfl, rfl, rfl⟩

/-! ### What serving a request does to the bus -/

/-- One bus write of an Operational block, on one of its two channels: a first part of its payload reached the device,
all of it on success, and it is no longer outstanding. The result `r` is not recorded yet. -/
def BusWriteIssued (s : State) (r : Result) (t : State) : Prop :=
  s.cfg = .operational ∧ t.inFlight = none ∧ t.results = s.results ∧
    ∃ (payload : List Byte) (addr : RegAddr) (k : Nat),
      OnChannels s.base (.write addr payload) ∧ t.trace = s.trace ++ [.write addr payload] ∧
      t.received = s.received ++ (payload.take k).map (fun b => ⟨addr, b⟩) ∧ (r = .ok → payload.length ≤ k)

/-- Serving a request issues no bus operation or one write. -/
def ServedTraffic (s : State) (r : Result) (t : State) : Prop :=
  SameTraffic s t ∨ BusWriteIssued s r t

/-- What follows the bus write of a request leaves the traffic as it is. -/
theorem ServedTraffic.then_same (h : ServedTraffic s r t) (h' : SameTraffic t u) : ServedTraffic s r u := by
  rcases h with h | ⟨hs, hf, hr, payload, addr, k, hc, ht, hd, hk⟩
  · exact .inl (h.trans h')
  · exact .inr ⟨hs, h'.inFlight.trans hf, h'.results.trans hr, payload, addr, k, hc, h'.trace.trans ht,
      h'.received.trans hd, hk⟩

theorem servedTraffic_transfer {addr : RegAddr} {v : List Byte} {k : Nat} (hs : s.cfg = .operational)
    (hc : OnChannels s.base (.write addr v)) (hk : r = .ok → v.length ≤ k) :
    ServedTraffic s r ((s.issue (.write addr v)).transfer addr v k) :=
  .inr ⟨hs, by simp, by simp, v, addr, k, hc, by simp, by simp, hk⟩

theorem serveSetColumnAddress_traffic {col : Byte} (h : serveSetColumnAddress col s = .done r t) :
    ServedTraffic s r t := by
  have hc := onChannels_setColumnAddress s.base col
  rcases serveSetColumnAddress_cases h with ⟨-, -, rfl⟩ | ⟨hs, -, rfl, rfl⟩ | ⟨hs, e, -, rfl, rfl⟩
  · exact .inl (.refl _)
  · exact (servedTraffic_transfer hs hc fun _ => Nat.le_refl 2).then_same (sameTraffic_selectColumn _ _)
  · exact servedTraffic_transfer hs hc nofun

theorem serveWriteData_traffic {data : List Byte} (h : serveWriteData data s = .done r t) :
    ServedTraffic s r t := by
  have hc := onChannels_writeData s.base data
  rcases serveWriteData_cases h with ⟨-, -, rfl⟩ | ⟨hs, -, rfl, rfl⟩ | ⟨hs, e, -, rfl, rfl⟩
  · exact .inl (sameTraffic_forgetColumn s)
  · exact (servedTraffic_transfer hs hc fun _ => Nat.le_refl _).then_same (sameTraffic_forgetColumn _)
  · exact (servedTraffic_transfer (r := .err e) hs hc nofun).then_same (sameTraffic_forgetColumn _)

theorem serveRead_refuse_sameTraffic {op : OperationType} {count : Nat}
    (h : serveRead .refuse op count s = .done r t) : SameTraffic s t := by
  rw [serveRead_refuse] at h
  cases h
  exact .refl s

theorem serveConfigDefault_sameTraffic {d : Byte} (h : serveConfigDefault d s = .done r t) : SameTraffic s t := by
  rcases serveConfigDefault_cases h with ⟨-, -, -, rfl⟩ | ⟨-, -, rfl⟩
  · exact sameTraffic_loadBase s d
  · exact .refl _

theorem serveConfigPreset_sameTraffic {sel : Preset} (h : serveConfigPreset sel s = .done r t) : SameTraffic s t := by
  rcases serveConfigPreset_cases h with ⟨-, -, rfl⟩ | ⟨-, -, rfl⟩
  · exact sameTraffic_loadBase s _
  · exact .refl _

theorem serveConfigCustom_sameTraffic {a : Byte} (h : serveConfigCustom a s = .done r t) : SameTraffic s t := by
  rcases serveConfigCustom_cases h with ⟨-, -, -, rfl⟩ | ⟨-, -, -, rfl⟩ | ⟨-, -, rfl⟩
  · exact sameTraffic_loadBase s a
  · exact sameTraffic_raiseConfigError s
  · exact .refl _

theorem serveConfigUnassigned_sameTraffic (h : serveConfigUnassigned s = .done r t) : SameTraffic s t := by
  cases h
  exact .refl s

theorem serveSetColumnMethod_traffic {n : Nat} (h : serveSetColumnMethod n s = .done r t) : ServedTraffic s r t := by
  rcases serveSetColumnMethod_cases h with ⟨-, h⟩ | ⟨-, -, rfl⟩
  · exact serveSetColumnAddress_traffic h
  · exact .inl (.refl _)

theorem serveDraw_traffic {x y : Int} {luma : Byte} (h : serveDraw x y luma s = .done r t) : ServedTraffic s r t := by
  rcases serveDraw_cases h with ⟨-, -, rfl⟩ | ⟨-, s', hcol, rfl, rfl⟩ | ⟨-, hcol, -⟩
  · exact .inl (.refl _)
  · exact (serveSetColumnAddress_traffic hcol).then_same (sameTraffic_await s' _)
  · exact serveSetColumnAddress_traffic hcol

/-- Outside a bus write no wire byte travels (spec/30_encoding.md R68). -/
theorem wireByte_of_nothing_outstanding (op : OperationType) (b : Byte) (hf : s.inFlight = none) :
    wireByte op b s = .next s := by
  rcases wireByte_cases op b s with ⟨rest, -, hf', -⟩ | ⟨-, h⟩
  · rw [hf] at hf'
    cases hf'
  · exact h

/-! ### What an instruction and a step do to the bus -/

/-- The traffic of a step that begins with no write outstanding. -/
def StepTraffic (s t : State) : Prop :=
  t.inFlight = none ∧
  (t.results = s.results ∨ ∃ r, t.results = s.results ++ [r]) ∧
  ((t.trace = s.trace ∧ t.received = s.received) ∨
    (s.cfg = .operational ∧ ∃ (payload : List Byte) (addr : RegAddr) (k : Nat) (r : Result),
      OnChannels s.base (.write addr payload) ∧ t.trace = s.trace ++ [.write addr payload] ∧
      t.received = s.received ++ (payload.take k).map (fun b => ⟨addr, b⟩) ∧
      t.results = s.results ++ [r] ∧ (r = .ok → payload.length ≤ k)))

/-- A step that returns no result has no traffic. -/
theorem SameTraffic.stepTraffic (h : SameTraffic s t) (hf : s.inFlight = none) : StepTraffic s t :=
  ⟨h.inFlight.trans hf, .inl h.results, .inl ⟨h.trace, h.received⟩⟩

/-- A request and the one result that it returns. -/
theorem ServedTraffic.stepTraffic_record (h : ServedTraffic s r t) (hf : s.inFlight = none) :
    StepTraffic s (t.record r) := by
  rcases h with h | ⟨hs, hf', hr, payload, addr, k, hc, ht, hd, hk⟩
  · exact ⟨h.inFlight.trans hf, .inr ⟨r, by simp [h.results]⟩, .inl ⟨h.trace, h.received⟩⟩
  · have hres : (t.record r).results = s.results ++ [r] := by simp [hr]
    exact ⟨hf', .inr ⟨r, hres⟩, .inr ⟨hs, payload, addr, k, r, hc, ht, hd, hres, hk⟩⟩

theorem stepTraffic_of_outcome {x : Served} (hf : s.inFlight = none)
    (hx : ∀ {r s'}, x = .done r s' → ServedTraffic s r s') (h : x.outcome = .next t) : StepTraffic s t := by
  obtain ⟨r, s', hdone, rfl⟩ := outcome_eq_next.1 h
  exact (hx hdone).stepTraffic_record hf

/-- The end of a driver call leaves the traffic of its last step as it is. -/
theorem StepTraffic.dropPending (h : StepTraffic s t) : StepTraffic s t.dropPending := h

theorem stepTraffic_of_wireByte {op : OperationType} {b : Byte} (hf : s.inFlight = none)
    (h : wireByte op b s = .next t) : StepTraffic s t := by
  rw [wireByte_of_nothing_outstanding op b hf] at h
  cases h
  exact (SameTraffic.refl s).stepTraffic hf

theorem exec_stepTraffic {i : Instr} (hf : s.inFlight = none) (h : exec i s = .next t) : StepTraffic s t := by
  cases i with
  | setColumnAddress col =>
    rw [exec_setColumnAddress] at h
    exact stepTraffic_of_outcome hf serveSetColumnAddress_traffic h
  | readStatus count =>
    rw [exec_readStatus] at h
    exact stepTraffic_of_outcome hf (fun hd => .inl (serveRead_refuse_sameTraffic hd)) h
  | writeData data =>
    rw [exec_writeData] at h
    exact stepTraffic_of_outcome hf serveWriteData_traffic h
  | readData count =>
    rw [exec_readData] at h
    exact stepTraffic_of_outcome hf (fun hd => .inl (serveRead_refuse_sameTraffic hd)) h
  | setcolLo l =>
    rw [exec_setcolLo] at h
    exact stepTraffic_of_wireByte hf h
  | setcolHi hi =>
    rw [exec_setcolHi] at h
    exact stepTraffic_of_wireByte hf h
  | data d =>
    rw [exec_data] at h
    exact stepTraffic_of_wireByte hf h
  | configDefault =>
    rw [exec_configDefault] at h
    exact stepTraffic_of_outcome hf (fun hd => .inl (serveConfigDefault_sameTraffic hd)) h
  | configPreset sel =>
    rw [exec_configPreset] at h
    exact stepTraffic_of_outcome hf (fun hd => .inl (serveConfigPreset_sameTraffic hd)) h
  | configCustom addr =>
    rw [exec_configCustom] at h
    exact stepTraffic_of_outcome hf (fun hd => .inl (serveConfigCustom_sameTraffic hd)) h
  | configUnassigned =>
    rw [exec_configUnassigned] at h
    exact stepTraffic_of_outcome hf (fun hd => .inl (serveConfigUnassigned_sameTraffic hd)) h
  | reset =>
    rw [exec_reset] at h
    cases h
    exact (sameTraffic_resetBlock s).stepTraffic hf
  | drvNew =>
    rw [exec_drvNew] at h
    exact stepTraffic_of_outcome hf
      (fun hd => .inl ((sameTraffic_resetBlock s).trans (serveConfigDefault_sameTraffic hd))) h
  | drvNewWithAddress option =>
    rw [exec_drvNewWithAddress] at h
    exact stepTraffic_of_outcome hf
      (fun hd => .inl ((sameTraffic_resetBlock s).trans (serveConfigPreset_sameTraffic hd))) h
  | drvNewCustomAddress address =>
    rw [exec_drvNewCustomAddress] at h
    exact stepTraffic_of_outcome hf
      (fun hd => .inl ((sameTraffic_resetBlock s).trans (serveConfigCustom_sameTraffic hd))) h
  | drvWriteData data =>
    rw [exec_drvWriteData] at h
    exact stepTraffic_of_outcome hf serveWriteData_traffic h
  | drvSetColumnAddress column =>
    rw [exec_drvSetColumnAddress] at h
    exact stepTraffic_of_outcome hf serveSetColumnMethod_traffic h
  | drvDraw x y luma =>
    rw [exec_drvDraw] at h
    exact stepTraffic_of_outcome hf serveDraw_traffic h
  | drvSize =>
    rw [exec_drvSize] at h
    cases h
    exact ServedTraffic.stepTraffic_record (.inl (.refl s)) hf

/-- Taking the request from the inbox, or from the call in progress, is no traffic: what `exec` says of the state that
is left holds of the whole step. -/
theorem step_stepTraffic (hf : s.inFlight = none) (h : step s = .next t) : StepTraffic s t := by
  rcases step_cases h with ⟨-, -, rfl⟩ | ⟨-, p, rest, i, -, -, hx⟩ | ⟨w, rest, u, -, hx, hu⟩
  · exact (SameTraffic.refl _).stepTraffic hf
  · exact exec_stepTraffic (s := { s with inbox := rest }) hf hx
  · have ht : StepTraffic s u := exec_stepTraffic (s := { s with pending := rest }) hf hx
    rcases hu with ⟨-, rfl⟩ | ⟨-, rfl⟩
    · exact ht
    · exact ht.dropPending

/-- Settles O47: `StepTraffic` is its conclusion, proved for every instruction and lifted to the step. -/
theorem eachStepMakesAtMostOneBusWrite : Obligations.EachStepMakesAtMostOneBusWrite :=
  fun _ _ => step_stepTraffic

end Sys2Proof.Machine
end

section
/-! Registers and state (spec/10_state.md): which bus operations a request issues (O14), what serving one leaves in
BASE and CFG (O24), what can read BASE (O25), the check of a base and the presets (O5, O6), the state after reset
(O26, O42) and the step (O37). -/

namespace Sys2Proof.Machine

variable {s s' t : State} {r : Result}

/-! ### Requests at the states that decide them -/

theorem whenOperational_of_not_operational (hs : s.cfg ≠ .operational) (k : State → Served) :
    whenOperational s k = .done (.refused .notOperational) s := by
  simp [whenOperational, hs]

theorem whenUnconfigured_of_unconfigured (hs : s.cfg = .unconfigured) (k : State → Served) :
    whenUnconfigured s k = k s := by
  simp [whenUnconfigured, hs]

theorem whenUnconfigured_of_not_unconfigured (hs : s.cfg ≠ .unconfigured) (k : State → Served) :
    whenUnconfigured s k = .done (.refused .badConfigRequest) s := by
  simp [whenUnconfigured, hs]

theorem wireByte_of_not_operational (hs : s.cfg ≠ .operational) (op : OperationType) (b : Byte) :
    wireByte op b s = .next s := by
  rcases wireByte_cases op b s with ⟨-, hs', -⟩ | ⟨-, h⟩
  · exact absurd hs' hs
  · exact h

/-! ### The bus operations of a request (O14) -/

/-- The bus operation of SetColumnAddress, as a function of the request, BASE and CFG. -/
def columnOperations (base : Byte) (cfg : Cfg) (col : Byte) : List BusOp :=
  if cfg = .operational then [.write (effectiveAddress base .setColumnAddress) (setColumnPayload col)] else []

/-- The bus operation of WriteData, as a function of the request, BASE and CFG. -/
def dataOperations (base : Byte) (cfg : Cfg) (data : List Byte) : List BusOp :=
  if cfg = .operational then [.write (effectiveAddress base .writeData) data] else []

/-- The bus operations of an instruction, as a function of the instruction, BASE and CFG (spec/10_state.md R20);
`exec_trace` ties it to the model. -/
def operationsOf (base : Byte) (cfg : Cfg) : Instr → List BusOp
  | .setColumnAddress col => columnOperations base cfg col
  | .writeData data => dataOperations base cfg data
  | .drvWriteData data => dataOperations base cfg data
  | .drvSetColumnAddress n => if n ≤ 255 then columnOperations base cfg (BitVec.ofNat 8 n) else []
  | .drvDraw x y _ => if pixelInBounds x y then columnOperations base cfg (BitVec.ofNat 8 x.toNat) else []
  | _ => []

theorem serveSetColumnAddress_trace {col : Byte} (h : serveSetColumnAddress col s = .done r t) :
    t.trace = s.trace ++ columnOperations s.base s.cfg col := by
  rcases serveSetColumnAddress_cases h with ⟨hs, -, rfl⟩ | ⟨hs, -, -, rfl⟩ | ⟨hs, -, -, -, rfl⟩ <;>
    simp [columnOperations, hs]

theorem serveWriteData_trace {data : List Byte} (h : serveWriteData data s = .done r t) :
    t.trace = s.trace ++ dataOperations s.base s.cfg data := by
  rcases serveWriteData_cases h with ⟨hs, -, rfl⟩ | ⟨hs, -, -, rfl⟩ | ⟨hs, -, -, -, rfl⟩ <;>
    simp [dataOperations, hs]

theorem serveSetColumnMethod_trace {n : Nat} (h : serveSetColumnMethod n s = .done r t) :
    t.trace = s.trace ++ operationsOf s.base s.cfg (.drvSetColumnAddress n) := by
  rcases serveSetColumnMethod_cases h with ⟨hn, h⟩ | ⟨hn, -, rfl⟩
  · simpa [operationsOf, hn] using serveSetColumnAddress_trace h
  · simp [operationsOf, Nat.not_le.2 hn]

theorem serveDraw_trace {x y : Int} {luma : Byte} (h : serveDraw x y luma s = .done r t) :
    t.trace = s.trace ++ operationsOf s.base s.cfg (.drvDraw x y luma) := by
  rcases serveDraw_cases h with ⟨hb, -, rfl⟩ | ⟨hb, s', hcol, -, rfl⟩ | ⟨hb, hcol, -⟩
  · simp [operationsOf, hb]
  · simpa [operationsOf, hb] using serveSetColumnAddress_trace hcol
  · simpa [operationsOf, hb] using serveSetColumnAddress_trace hcol

theorem SameTraffic.trace_append_nil (h : SameTraffic s t) : t.trace = s.trace ++ [] := by
  simp [h.trace]

theorem wireByte_trace {op : OperationType} {b : Byte} (h : wireByte op b s = .next t) :
    t.trace = s.trace ++ [] := by
  rcases wireByte_cases op b s with ⟨rest, -, -, h'⟩ | ⟨-, h'⟩
  · cases h'.symm.trans h
    simp
  · cases h'.symm.trans h
    simp

/-- Recording the result of a request leaves the TRACE as the request left it. -/
theorem trace_of_outcome {x : Served} {ops : List BusOp}
    (hx : ∀ {r s'}, x = .done r s' → s'.trace = s.trace ++ ops) (h : x.outcome = .next t) :
    t.trace = s.trace ++ ops := by
  obtain ⟨r, s', hdone, rfl⟩ := outcome_eq_next.1 h
  rw [State.record_trace]
  exact hx hdone

/-- The new TRACE entries of an instruction are `operationsOf` of it: neither the transport's answers, nor the device,
nor the records take part. -/
theorem exec_trace {i : Instr} (h : exec i s = .next t) : t.trace = s.trace ++ operationsOf s.base s.cfg i := by
  cases i with
  | setColumnAddress col => exact trace_of_outcome serveSetColumnAddress_trace h
  | readStatus count => exact trace_of_outcome (fun hd => (serveRead_refuse_sameTraffic hd).trace_append_nil) h
  | writeData data => exact trace_of_outcome serveWriteData_trace h
  | readData count => exact trace_of_outcome (fun hd => (serveRead_refuse_sameTraffic hd).trace_append_nil) h
  | setcolLo l => exact wireByte_trace h
  | setcolHi hi => exact wireByte_trace h
  | data d => exact wireByte_trace h
  | configDefault => exact trace_of_outcome (fun hd => (serveConfigDefault_sameTraffic hd).trace_append_nil) h
  | configPreset sel => exact trace_of_outcome (fun hd => (serveConfigPreset_sameTraffic hd).trace_append_nil) h
  | configCustom addr => exact trace_of_outcome (fun hd => (serveConfigCustom_sameTraffic hd).trace_append_nil) h
  | configUnassigned => exact trace_of_outcome (fun hd => (serveConfigUnassigned_sameTraffic hd).trace_append_nil) h
  | reset =>
    cases h
    exact (sameTraffic_resetBlock s).trace_append_nil
  | drvNew =>
    exact trace_of_outcome (s := s.resetBlock) (fun hd => (serveConfigDefault_sameTraffic hd).trace_append_nil) h
  | drvNewWithAddress option =>
    exact trace_of_outcome (s := s.resetBlock) (fun hd => (serveConfigPreset_sameTraffic hd).trace_append_nil) h
  | drvNewCustomAddress address =>
    exact trace_of_outcome (s := s.resetBlock) (fun hd => (serveConfigCustom_sameTraffic hd).trace_append_nil) h
  | drvWriteData data => exact trace_of_outcome serveWriteData_trace h
  | drvSetColumnAddress column => exact trace_of_outcome serveSetColumnMethod_trace h
  | drvDraw x y luma => exact trace_of_outcome serveDraw_trace h
  | drvSize =>
    cases h
    simp [operationsOf]

/-- Settles O14: in both runs the new entries are `operationsOf` of the instruction at the common BASE and CFG. -/
theorem busOperationsDependOnBaseAndCfgAlone : Obligations.BusOperationsDependOnBaseAndCfgAlone := by
  intro i s₁ s₂ t₁ t₂ hbase hcfg h₁ h₂
  refine ⟨operationsOf s₁.base s₁.cfg i, exec_trace h₁, ?_⟩
  rw [hbase, hcfg]
  exact exec_trace h₂

/-! ### What serving an instruction does to BASE and CFG (O24) -/

/-- The two state elements of the block (spec/10_state.md R20) are the same in both states. -/
structure SameBlock (s t : State) : Prop where
  base : t.base = s.base
  cfg : t.cfg = s.cfg

theorem SameBlock.refl (s : State) : SameBlock s s := ⟨rfl, rfl⟩

theorem serveSetColumnAddress_sameBlock {col : Byte} (h : serveSetColumnAddress col s = .done r t) :
    SameBlock s t := by
  rcases serveSetColumnAddress_cases h with ⟨-, -, rfl⟩ | ⟨-, -, -, rfl⟩ | ⟨-, -, -, -, rfl⟩ <;>
    constructor <;> simp

theorem serveWriteData_sameBlock {data : List Byte} (h : serveWriteData data s = .done r t) : SameBlock s t := by
  rcases serveWriteData_cases h with ⟨-, -, rfl⟩ | ⟨-, -, -, rfl⟩ | ⟨-, -, -, -, rfl⟩ <;>
    constructor <;> simp

theorem serveRead_refuse_sameBlock {op : OperationType} {count : Nat}
    (h : serveRead .refuse op count s = .done r t) : SameBlock s t := by
  rw [serveRead_refuse] at h
  cases h
  exact .refl s

theorem serveSetColumnMethod_sameBlock {n : Nat} (h : serveSetColumnMethod n s = .done r t) : SameBlock s t := by
  rcases serveSetColumnMethod_cases h with ⟨-, h⟩ | ⟨-, -, rfl⟩
  · exact serveSetColumnAddress_sameBlock h
  · exact .refl _

theorem serveDraw_sameBlock {x y : Int} {luma : Byte} (h : serveDraw x y luma s = .done r t) : SameBlock s t := by
  rcases serveDraw_cases h with ⟨-, -, rfl⟩ | ⟨-, s', hcol, -, rfl⟩ | ⟨-, hcol, -⟩
  · exact .refl _
  · obtain ⟨hb, hc⟩ := serveSetColumnAddress_sameBlock hcol
    exact ⟨hb, hc⟩
  · exact serveSetColumnAddress_sameBlock hcol

theorem wireByte_sameBlock {op : OperationType} {b : Byte} (h : wireByte op b s = .next t) : SameBlock s t := by
  rcases wireByte_cases op b s with ⟨rest, -, -, h'⟩ | ⟨-, h'⟩
  · cases h'.symm.trans h
    exact ⟨rfl, rfl⟩
  · cases h'.symm.trans h
    exact .refl _

/-- The instruction is a configuration load of this base: DEFAULT_BASE, a preset, or a valid custom address
(spec/70_reset_and_hazards.md R151 to R153). -/
def LoadsBase (i : Instr) (b : Byte) : Prop :=
  (i = .configDefault ∧ b = Config.defaultBase) ∨
  (∃ p, i = .configPreset p ∧ b = presetBase p) ∨
  (∃ a, i = .configCustom a ∧ a.toNat < 0x7B ∧ b = a)

/-- Everything an instruction can do to BASE and CFG. -/
inductive BlockChange (i : Instr) (s t : State) : Prop where
  /-- Neither changes. -/
  | kept (h : SameBlock s t)
  /-- A configuration load succeeds. -/
  | loaded (hs : s.cfg = .unconfigured) (ht : t.cfg = .operational) (hb : LoadsBase i t.base)
  /-- An invalid custom address raises ConfigError, which leaves BASE. -/
  | faulted (hs : s.cfg = .unconfigured) (ht : t.cfg = .configFault) (hb : t.base = s.base)
      (hi : ∃ a, i = .configCustom a ∧ 0x7B ≤ a.toNat)
  /-- The instruction contains a RESET. -/
  | wasReset (h : resetsBlock i = true)

theorem serveConfigDefault_blockChange (h : serveConfigDefault Config.defaultBase s = .done r t) :
    BlockChange .configDefault s t := by
  rcases serveConfigDefault_cases h with ⟨hs, -, -, rfl⟩ | ⟨-, -, rfl⟩
  · exact .loaded hs rfl (.inl ⟨rfl, rfl⟩)
  · exact .kept (.refl _)

theorem serveConfigPreset_blockChange {sel : Preset} (h : serveConfigPreset sel s = .done r t) :
    BlockChange (.configPreset sel) s t := by
  rcases serveConfigPreset_cases h with ⟨hs, -, rfl⟩ | ⟨-, -, rfl⟩
  · exact .loaded hs rfl (.inr (.inl ⟨sel, rfl, rfl⟩))
  · exact .kept (.refl _)

theorem serveConfigCustom_blockChange {a : Byte} (h : serveConfigCustom a s = .done r t) :
    BlockChange (.configCustom a) s t := by
  rcases serveConfigCustom_cases h with ⟨hs, ha, -, rfl⟩ | ⟨hs, ha, -, rfl⟩ | ⟨-, -, rfl⟩
  · exact .loaded hs rfl (.inr (.inr ⟨a, rfl, ha, rfl⟩))
  · exact .faulted hs rfl rfl ⟨a, rfl, ha⟩
  · exact .kept (.refl _)

/-- Recording a result changes neither BASE nor CFG. -/
theorem BlockChange.record {i : Instr} (h : BlockChange i s t) : BlockChange i s (t.record r) := by
  cases h with
  | kept h => exact .kept ⟨h.base, h.cfg⟩
  | loaded hs ht hb => exact .loaded hs ht hb
  | faulted hs ht hb hi => exact .faulted hs ht hb hi
  | wasReset h => exact .wasReset h

theorem blockChange_of_outcome {i : Instr} {x : Served}
    (hx : ∀ {r s'}, x = .done r s' → BlockChange i s s') (h : x.outcome = .next t) : BlockChange i s t := by
  obtain ⟨r, s', hdone, rfl⟩ := outcome_eq_next.1 h
  exact (hx hdone).record

theorem exec_blockChange {i : Instr} (h : exec i s = .next t) : BlockChange i s t := by
  cases i with
  | setColumnAddress col => exact blockChange_of_outcome (fun hd => .kept (serveSetColumnAddress_sameBlock hd)) h
  | readStatus count => exact blockChange_of_outcome (fun hd => .kept (serveRead_refuse_sameBlock hd)) h
  | writeData data => exact blockChange_of_outcome (fun hd => .kept (serveWriteData_sameBlock hd)) h
  | readData count => exact blockChange_of_outcome (fun hd => .kept (serveRead_refuse_sameBlock hd)) h
  | setcolLo l => exact .kept (wireByte_sameBlock h)
  | setcolHi hi => exact .kept (wireByte_sameBlock h)
  | data d => exact .kept (wireByte_sameBlock h)
  | configDefault => exact blockChange_of_outcome serveConfigDefault_blockChange h
  | configPreset sel => exact blockChange_of_outcome serveConfigPreset_blockChange h
  | configCustom addr => exact blockChange_of_outcome serveConfigCustom_blockChange h
  | configUnassigned =>
    cases h
    exact .kept ⟨rfl, rfl⟩
  | reset => exact .wasReset rfl
  | drvNew => exact .wasReset rfl
  | drvNewWithAddress option => exact .wasReset rfl
  | drvNewCustomAddress address => exact .wasReset rfl
  | drvWriteData data => exact blockChange_of_outcome (fun hd => .kept (serveWriteData_sameBlock hd)) h
  | drvSetColumnAddress column =>
    exact blockChange_of_outcome (fun hd => .kept (serveSetColumnMethod_sameBlock hd)) h
  | drvDraw x y luma => exact blockChange_of_outcome (fun hd => .kept (serveDraw_sameBlock hd)) h
  | drvSize =>
    cases h
    exact .kept ⟨rfl, rfl⟩

/-- Settles O24: of the four kinds of `BlockChange` only a load and a RESET change BASE. -/
theorem baseIsWrittenByLoadsOnly : Obligations.BaseIsWrittenByLoadsOnly := by
  intro i s t h hne
  cases exec_blockChange h with
  | kept hsame => exact absurd hsame.base hne
  | loaded hs ht hb => exact .inr ⟨hs, ht, hb⟩
  | faulted _ _ hb _ => exact absurd hb hne
  | wasReset hi => exact .inl hi

/-! ### What can read BASE (O25)

The unwinding of noninterference: two states that differ in BASE at most, and not even there while Operational, are
served alike and stay so. -/

/-- The two states are the same, except for BASE where the block is not Operational. -/
def SameReadable (s s' : State) : Prop :=
  ∃ b, s' = { s with base := b } ∧ (s.cfg = .operational → b = s.base)

theorem SameReadable.refl (s : State) : SameReadable s s := ⟨s.base, rfl, fun _ => rfl⟩

theorem SameReadable.cfg_eq (h : SameReadable s s') : s'.cfg = s.cfg := by
  obtain ⟨b, rfl, -⟩ := h
  rfl

theorem SameReadable.eq_of_operational (h : SameReadable s s') (hs : s.cfg = .operational) : s' = s := by
  obtain ⟨b, rfl, hb⟩ := h
  rw [hb hs]

theorem SameReadable.record (h : SameReadable s s') (r : Result) : SameReadable (s.record r) (s'.record r) := by
  obtain ⟨b, rfl, hb⟩ := h
  exact ⟨b, rfl, hb⟩

theorem SameReadable.forgetColumn (h : SameReadable s s') : SameReadable s.forgetColumn s'.forgetColumn := by
  obtain ⟨b, rfl, hb⟩ := h
  exact ⟨b, rfl, hb⟩

theorem SameReadable.await (h : SameReadable s s') (w : Pending) : SameReadable (s.await w) (s'.await w) := by
  obtain ⟨b, rfl, hb⟩ := h
  exact ⟨b, rfl, hb⟩

theorem SameReadable.raiseConfigError (h : SameReadable s s') :
    SameReadable s.raiseConfigError s'.raiseConfigError := by
  obtain ⟨b, rfl, -⟩ := h
  exact ⟨b, rfl, nofun⟩

/-- A load overwrites the only difference. -/
theorem SameReadable.loadBase_eq (h : SameReadable s s') (b : Byte) : s'.loadBase b = s.loadBase b := by
  obtain ⟨b', rfl, -⟩ := h
  rfl

/-- So does a RESET. -/
theorem SameReadable.resetBlock_eq (h : SameReadable s s') : s'.resetBlock = s.resetBlock := by
  obtain ⟨b, rfl, -⟩ := h
  rfl

/-- Serving the request keeps `SameReadable` and gives the same result in both states. -/
def KeepsSameReadable (serve : State → Served) : Prop :=
  ∀ ⦃s s' r t⦄, SameReadable s s' → serve s = .done r t → ∃ t', serve s' = .done r t' ∧ SameReadable t t'

/-- The request reads BASE while Operational only, where the two states are equal. -/
theorem whenOperational_keepsSameReadable (k : State → Served) :
    KeepsSameReadable (fun s => whenOperational s k) := by
  intro s s' r t hss h
  by_cases hs : s.cfg = .operational
  · exact ⟨t, by rw [hss.eq_of_operational hs]; exact h, .refl t⟩
  · have hs' : s'.cfg ≠ .operational := by rwa [hss.cfg_eq]
    simp only [whenOperational_of_not_operational hs] at h
    cases h
    exact ⟨s', whenOperational_of_not_operational hs' k, hss⟩

theorem whenUnconfigured_keepsSameReadable {k : State → Served} (hk : KeepsSameReadable k) :
    KeepsSameReadable (fun s => whenUnconfigured s k) := by
  intro s s' r t hss h
  by_cases hs : s.cfg = .unconfigured
  · have hs' : s'.cfg = .unconfigured := by rwa [hss.cfg_eq]
    simp only [whenUnconfigured_of_unconfigured, hs, hs'] at h ⊢
    exact hk hss h
  · have hs' : s'.cfg ≠ .unconfigured := by rwa [hss.cfg_eq]
    simp only [whenUnconfigured_of_not_unconfigured hs] at h
    cases h
    exact ⟨s', whenUnconfigured_of_not_unconfigured hs' k, hss⟩

theorem done_keepsSameReadable (r : Result) : KeepsSameReadable (fun s => .done r s) := by
  rintro s s' _ _ hss ⟨⟩
  exact ⟨s', rfl, hss⟩

theorem loadBase_keepsSameReadable (b : Byte) : KeepsSameReadable (fun s => .done .ok (s.loadBase b)) := by
  rintro s s' _ _ hss ⟨⟩
  exact ⟨s.loadBase b, by simp only [hss.loadBase_eq], .refl _⟩

theorem raiseConfigError_keepsSameReadable :
    KeepsSameReadable (fun s => .done .configError s.raiseConfigError) := by
  rintro s s' _ _ hss ⟨⟩
  exact ⟨_, rfl, hss.raiseConfigError⟩

theorem KeepsSameReadable.columnForgotten {serve : State → Served} (hk : KeepsSameReadable serve) :
    KeepsSameReadable (fun s => (serve s).columnForgotten) := by
  intro s s' r t hss h
  obtain ⟨u, hu, rfl⟩ := columnForgotten_eq_done.1 h
  obtain ⟨u', hu', huu⟩ := hk hss hu
  exact ⟨u'.forgetColumn, columnForgotten_eq_done.2 ⟨u', hu', rfl⟩, huu.forgetColumn⟩

theorem KeepsSameReadable.thenAwait {serve : State → Served} (hk : KeepsSameReadable serve) (w : Pending) :
    KeepsSameReadable (fun s => (serve s).thenAwait w) := by
  intro s s' r t hss h
  rcases thenAwait_eq_done.1 h with ⟨u, hu, rfl, rfl⟩ | ⟨hu, hr⟩
  · obtain ⟨u', hu', huu⟩ := hk hss hu
    exact ⟨u'.await w, thenAwait_eq_done.2 (.inl ⟨u', hu', rfl, rfl⟩), huu.await w⟩
  · obtain ⟨t', ht', htt⟩ := hk hss hu
    exact ⟨t', thenAwait_eq_done.2 (.inr ⟨ht', hr⟩), htt⟩

/-- A choice by the request alone. -/
theorem KeepsSameReadable.ite {c : Prop} [Decidable c] {serve serve' : State → Served}
    (h : KeepsSameReadable serve) (h' : KeepsSameReadable serve') :
    KeepsSameReadable (fun s => if c then serve s else serve' s) := by
  by_cases hc : c
  · simpa only [hc, if_true] using h
  · simpa only [hc, if_false] using h'

/-- After a RESET nothing is left of the difference. -/
theorem resetBlock_keepsSameReadable (serve : State → Served) :
    KeepsSameReadable (fun s => serve s.resetBlock) := by
  intro s s' r t hss h
  exact ⟨t, by simpa only [hss.resetBlock_eq] using h, .refl t⟩

theorem serveSetColumnAddress_keepsSameReadable (col : Byte) : KeepsSameReadable (serveSetColumnAddress col) :=
  whenOperational_keepsSameReadable _

theorem serveWriteData_keepsSameReadable (data : List Byte) : KeepsSameReadable (serveWriteData data) :=
  (whenOperational_keepsSameReadable _).columnForgotten

theorem serveRead_keepsSameReadable (ops : Config.ReadOps) (op : OperationType) (count : Nat) :
    KeepsSameReadable (serveRead ops op count) :=
  whenOperational_keepsSameReadable _

theorem serveConfigDefault_keepsSameReadable (d : Byte) : KeepsSameReadable (serveConfigDefault d) :=
  whenUnconfigured_keepsSameReadable ((done_keepsSameReadable _).ite (loadBase_keepsSameReadable d))

theorem serveConfigPreset_keepsSameReadable (sel : Preset) : KeepsSameReadable (serveConfigPreset sel) :=
  whenUnconfigured_keepsSameReadable (loadBase_keepsSameReadable _)

theorem serveConfigCustom_keepsSameReadable (a : Byte) : KeepsSameReadable (serveConfigCustom a) :=
  whenUnconfigured_keepsSameReadable ((loadBase_keepsSameReadable a).ite raiseConfigError_keepsSameReadable)

theorem serveSetColumnMethod_keepsSameReadable (n : Nat) : KeepsSameReadable (serveSetColumnMethod n) :=
  (serveSetColumnAddress_keepsSameReadable _).ite (done_keepsSameReadable _)

theorem serveDraw_keepsSameReadable (x y : Int) (luma : Byte) : KeepsSameReadable (serveDraw x y luma) :=
  ((serveSetColumnMethod_keepsSameReadable _).thenAwait _).ite (done_keepsSameReadable _)

/-- The step keeps `SameReadable`. -/
def StepKeepsSameReadable (f : State → Host.Outcome State Fault Refusal) : Prop :=
  ∀ ⦃s s' t⦄, SameReadable s s' → f s = .next t → ∃ t', f s' = .next t' ∧ SameReadable t t'

theorem KeepsSameReadable.outcome {serve : State → Served} (hk : KeepsSameReadable serve) :
    StepKeepsSameReadable (fun s => (serve s).outcome) := by
  intro s s' t hss h
  obtain ⟨r, u, hu, rfl⟩ := outcome_eq_next.1 h
  obtain ⟨u', hu', huu⟩ := hk hss hu
  exact ⟨u'.record r, outcome_eq_next.2 ⟨r, u', hu', rfl⟩, huu.record r⟩

theorem wireByte_keepsSameReadable (op : OperationType) (b : Byte) : StepKeepsSameReadable (wireByte op b) := by
  intro s s' t hss h
  by_cases hs : s.cfg = .operational
  · exact ⟨t, by rw [hss.eq_of_operational hs]; exact h, .refl t⟩
  · have hs' : s'.cfg ≠ .operational := by rwa [hss.cfg_eq]
    rw [wireByte_of_not_operational hs] at h
    cases h
    exact ⟨s', wireByte_of_not_operational hs' op b, hss⟩

theorem exec_keepsSameReadable (i : Instr) : StepKeepsSameReadable (exec i) := by
  cases i with
  | setColumnAddress col => exact (serveSetColumnAddress_keepsSameReadable col).outcome
  | readStatus count => exact (serveRead_keepsSameReadable _ _ count).outcome
  | writeData data => exact (serveWriteData_keepsSameReadable data).outcome
  | readData count => exact (serveRead_keepsSameReadable _ _ count).outcome
  | setcolLo l => exact wireByte_keepsSameReadable _ _
  | setcolHi hi => exact wireByte_keepsSameReadable _ _
  | data d => exact wireByte_keepsSameReadable _ _
  | configDefault => exact (serveConfigDefault_keepsSameReadable _).outcome
  | configPreset sel => exact (serveConfigPreset_keepsSameReadable sel).outcome
  | configCustom addr => exact (serveConfigCustom_keepsSameReadable addr).outcome
  | configUnassigned => exact (done_keepsSameReadable _).outcome
  | reset =>
    rintro s s' _ hss ⟨⟩
    exact ⟨s.resetBlock, by rw [exec_reset, hss.resetBlock_eq], .refl _⟩
  | drvNew => exact (resetBlock_keepsSameReadable (serveConfigDefault _)).outcome
  | drvNewWithAddress option => exact (resetBlock_keepsSameReadable (serveConfigPreset option)).outcome
  | drvNewCustomAddress address => exact (resetBlock_keepsSameReadable (serveConfigCustom address)).outcome
  | drvWriteData data => exact (serveWriteData_keepsSameReadable data).outcome
  | drvSetColumnAddress column => exact (serveSetColumnMethod_keepsSameReadable column).outcome
  | drvDraw x y luma => exact (serveDraw_keepsSameReadable x y luma).outcome
  | drvSize => exact (done_keepsSameReadable _).outcome

/-- Settles O25: a state that is not Operational is `SameReadable` to itself with any BASE, and every instruction keeps
that. -/
theorem baseIsUnreadableUntilLoaded : Obligations.BaseIsUnreadableUntilLoaded := by
  intro i s t b hs h
  have hss : SameReadable s { s with base := b } := ⟨b, rfl, fun hop => absurd hop hs⟩
  obtain ⟨t', ht', b', rfl, hb'⟩ := exec_keepsSameReadable i hss h
  exact ⟨b', ht', hb'⟩

/-! ### The check of a custom base, and the presets (O5, O6) -/

theorem customBaseValid_iff (a : Byte) : customBaseValid a = true ↔ a.toNat < 0x7B := by
  simp [customBaseValid, BitVec.ult]

theorem serveConfigCustom_of_valid {a : Byte} (hs : s.cfg = .unconfigured) (ha : a.toNat < 0x7B) :
    serveConfigCustom a s = .done .ok (s.loadBase a) := by
  simp [serveConfigCustom, whenUnconfigured_of_unconfigured hs, (customBaseValid_iff a).2 ha]

theorem serveConfigPreset_of_unconfigured (sel : Preset) (hs : s.cfg = .unconfigured) :
    serveConfigPreset sel s = .done .ok (s.loadBase (presetBase sel)) :=
  whenUnconfigured_of_unconfigured hs _

theorem exec_configCustom_loads_iff (a : Byte) (hs : s.cfg = .unconfigured) :
    (∃ t, exec (.configCustom a) s = .next t ∧ t.cfg = .operational ∧ t.base = a) ↔ a.toNat < 0x7B := by
  constructor
  · rintro ⟨t, h, ht, -⟩
    cases exec_blockChange h with
    | kept hsame => simp [hsame.cfg, hs] at ht
    | loaded _ _ hb =>
      rcases hb with ⟨⟨⟩, -⟩ | ⟨p, ⟨⟩, -⟩ | ⟨a', ⟨⟩, ha, -⟩
      exact ha
    | faulted _ ht' _ _ => simp [ht'] at ht
    | wasReset hi => cases hi
  · intro ha
    exact ⟨_, by rw [exec_configCustom, serveConfigCustom_of_valid hs ha]; rfl, rfl, rfl⟩

theorem customBaseValid_ofNat {n : Nat} (hn : n < 256) :
    customBaseValid (BitVec.ofNat 8 n) = true ↔ n < 0x7B := by
  rw [customBaseValid_iff, BitVec.toNat_ofNat, Nat.mod_eq_of_lt hn]

/-- The first 0x7B byte values are valid, and none of the 133 after them. -/
theorem count_invalid_bases :
    ((List.range 256).filter (fun n => !customBaseValid (BitVec.ofNat 8 n))).length = 133 := by
  have hvalid : (List.range 0x7B).filter (fun n => !customBaseValid (BitVec.ofNat 8 n)) = [] := by
    rw [List.filter_eq_nil_iff]
    intro n hn
    have hn : n < 0x7B := List.mem_range.1 hn
    simp [(customBaseValid_ofNat (by omega)).2 hn]
  have hinvalid : ((List.range 133).map (0x7B + ·)).filter (fun n => !customBaseValid (BitVec.ofNat 8 n)) =
      (List.range 133).map (0x7B + ·) := by
    rw [List.filter_eq_self]
    intro n hn
    obtain ⟨m, hm, rfl⟩ := List.mem_map.1 hn
    have hm : m < 133 := List.mem_range.1 hm
    have hbad : customBaseValid (BitVec.ofNat 8 (0x7B + m)) = false :=
      Bool.eq_false_iff.2 (mt (customBaseValid_ofNat (by omega)).1 (by omega))
    simp only [hbad, Bool.not_false]
  rw [show 256 = 0x7B + 133 from rfl, List.range_add, List.filter_append, hvalid, hinvalid, List.nil_append,
    List.length_map, List.length_range]

/-- Settles O5. -/
theorem customBaseIsValidBelow7B : Obligations.CustomBaseIsValidBelow7B := by
  refine ⟨customBaseValid_iff, ?_, count_invalid_bases, fun a s hs => exec_configCustom_loads_iff a hs⟩
  intro a h
  have ha : a.toNat < 0x7B := (customBaseValid_iff a).1 h
  exact ⟨Nat.testBit_lt_two_pow (by omega), by omega⟩

/-- Settles O6. -/
theorem presetBasesAreLoadedUnchecked : Obligations.PresetBasesAreLoadedUnchecked := by
  refine ⟨rfl, rfl, rfl, rfl, rfl, fun p s hs => ?_⟩
  exact ⟨_, by rw [exec_configPreset, serveConfigPreset_of_unconfigured p hs]; rfl, rfl, rfl⟩

/-! ### The state after reset (O26, O42) -/

/-- In a state that is not Operational each of the four operation types is refused: one result, no bus operation
(spec/41_commands.md R95). -/
theorem exec_operation_refused (hs : s.cfg ≠ .operational) (col : Byte) (data : List Byte) (n : Nat) :
    ∀ i ∈ [Instr.setColumnAddress col, .readStatus n, .writeData data, .readData n],
      ∃ t, exec i s = .next t ∧ t.trace = s.trace ∧ t.results = s.results ++ [.refused .notOperational] := by
  simp only [List.forall_mem_cons, exec_setColumnAddress, exec_readStatus, exec_writeData, exec_readData,
    serveSetColumnAddress, serveRead, serveWriteData, whenOperational_of_not_operational hs]
  exact ⟨⟨_, rfl, rfl, rfl⟩, ⟨_, rfl, rfl, rfl⟩, ⟨_, rfl, rfl, rfl⟩, ⟨_, rfl, rfl, rfl⟩, nofun⟩

/-- Settles O26. -/
theorem resetStateIsUnconfigured : Obligations.ResetStateIsUnconfigured :=
  ⟨rfl, rfl, exec_operation_refused (s := State.reset) nofun⟩

/-- Settles O42: the reset state is not Operational, its TRACE is empty and its device column unknown, so each part of
the invariant speaks of nothing there; and no bus write is outstanding. -/
theorem resetMeetsTheInvariant : Obligations.ResetMeetsTheInvariant := by
  have hbase : BaseFits State.reset := nofun
  have hwrites : OnlyWrites State.reset := nofun
  have hcol : ColumnFromTrace State.reset := nofun
  exact ⟨hbase, hwrites, hcol, rfl⟩

/-! ### The step (O37) -/

theorem step_undecodable {p : List Byte} {rest : List (List Byte)} {why : DecodeError} (hp : s.pending = [])
    (hi : s.inbox = p :: rest) (hd : decode p = .error why) : step s = .refused (.undecodable why) := by
  simp [step, hp, hi, hd]

theorem step_pending_next {w : Pending} {rest : List Pending} (hp : s.pending = w :: rest)
    (h : exec w.instr { s with pending := rest } = .next t) :
    step s = .next (if t.results.getLast? = some .ok then t else t.dropPending) := by
  rw [step_pending hp, h]
  rfl

theorem step_pending_fault {w : Pending} {rest : List Pending} {f : Fault} (hp : s.pending = w :: rest)
    (h : exec w.instr { s with pending := rest } = .fault f) : step s = .fault f := by
  rw [step_pending hp, h]
  rfl

/-- Settles O37: one rule of `step` per case. -/
theorem stepServesThePresentedRequest : Obligations.StepServesThePresentedRequest :=
  ⟨fun _ _ _ _ => step_presented, fun _ => step_idle, fun _ _ _ _ => step_undecodable,
    fun _ _ _ _ => step_pending_next, fun _ _ _ _ => step_pending_fault, fun _ _ => ⟨rfl, rfl⟩⟩

end Sys2Proof.Machine
end

section
/-! Memory, the registers of the bus (spec/20_memory.md): the invariant of the machine (O43) and the effective address
(O2). `StepTraffic` and `BlockChange` already say what a step does to the bus and to the block; what is added here is
what it does to the device's column, and that a driver constructor is a RESET and a configuration request. -/

namespace Sys2Proof.Machine

variable {s t u : State} {r : Result}

/-! ### What an instruction does to the device's column -/

/-- Everything an instruction without a RESET can do to the device's column (spec/70_reset_and_hazards.md R157). -/
inductive ColumnChange (s t : State) : Prop where
  /-- Neither the column nor the TRACE changes. -/
  | kept (hc : t.devCol = s.devCol) (ht : t.trace = s.trace)
  /-- The column is unknown. -/
  | forgotten (hc : t.devCol = none)
  /-- The one bus operation, which succeeded, selected the column. -/
  | selected (col : Byte) (addr : RegAddr) (hc : t.devCol = some col)
      (ht : t.trace = s.trace ++ [.write addr (setColumnPayload col)])

theorem ColumnChange.refl (s : State) : ColumnChange s s := .kept rfl rfl

/-- What leaves the column and the TRACE alone can follow. -/
theorem ColumnChange.then_same (h : ColumnChange s t) (hdev : u.devCol = t.devCol) (htrace : u.trace = t.trace) :
    ColumnChange s u := by
  cases h with
  | kept hc ht => exact .kept (hdev.trans hc) (htrace.trans ht)
  | forgotten hc => exact .forgotten (hdev.trans hc)
  | selected col addr hc ht => exact .selected col addr (hdev.trans hc) (htrace.trans ht)

theorem serveSetColumnAddress_columnChange {col : Byte} (h : serveSetColumnAddress col s = .done r t) :
    ColumnChange s t := by
  rcases serveSetColumnAddress_cases h with ⟨-, -, rfl⟩ | ⟨-, -, -, rfl⟩ | ⟨-, -, -, -, rfl⟩
  · exact .refl _
  · exact .selected col (effectiveAddress s.base .setColumnAddress) (by simp) (by simp)
  · exact .forgotten (by simp)

theorem serveWriteData_columnChange {data : List Byte} (h : serveWriteData data s = .done r t) :
    ColumnChange s t := by
  obtain ⟨u, -, rfl⟩ := columnForgotten_eq_done.1 h
  exact .forgotten rfl

theorem serveRead_refuse_columnChange {op : OperationType} {count : Nat}
    (h : serveRead .refuse op count s = .done r t) : ColumnChange s t := by
  rw [serveRead_refuse] at h
  cases h
  exact .refl s

theorem serveConfigDefault_columnChange {d : Byte} (h : serveConfigDefault d s = .done r t) : ColumnChange s t := by
  rcases serveConfigDefault_cases h with ⟨-, -, -, rfl⟩ | ⟨-, -, rfl⟩
  · exact .kept rfl rfl
  · exact .refl _

theorem serveConfigPreset_columnChange {sel : Preset} (h : serveConfigPreset sel s = .done r t) :
    ColumnChange s t := by
  rcases serveConfigPreset_cases h with ⟨-, -, rfl⟩ | ⟨-, -, rfl⟩
  · exact .kept rfl rfl
  · exact .refl _

theorem serveConfigCustom_columnChange {a : Byte} (h : serveConfigCustom a s = .done r t) : ColumnChange s t := by
  rcases serveConfigCustom_cases h with ⟨-, -, -, rfl⟩ | ⟨-, -, -, rfl⟩ | ⟨-, -, rfl⟩
  · exact .kept rfl rfl
  · exact .kept rfl rfl
  · exact .refl _

theorem serveSetColumnMethod_columnChange {n : Nat} (h : serveSetColumnMethod n s = .done r t) :
    ColumnChange s t := by
  rcases serveSetColumnMethod_cases h with ⟨-, h⟩ | ⟨-, -, rfl⟩
  · exact serveSetColumnAddress_columnChange h
  · exact .refl _

theorem serveDraw_columnChange {x y : Int} {luma : Byte} (h : serveDraw x y luma s = .done r t) :
    ColumnChange s t := by
  rcases serveDraw_cases h with ⟨-, -, rfl⟩ | ⟨-, s', hcol, -, rfl⟩ | ⟨-, hcol, -⟩
  · exact .refl _
  · exact (serveSetColumnAddress_columnChange hcol).then_same (State.await_devCol _ _) (State.await_trace _ _)
  · exact serveSetColumnAddress_columnChange hcol

/-- A wire byte is a part of a bus operation and none itself (log 14). -/
theorem wireByte_columnChange {op : OperationType} {b : Byte} (h : wireByte op b s = .next t) :
    ColumnChange s t := by
  rcases wireByte_cases op b s with ⟨rest, -, -, h'⟩ | ⟨-, h'⟩
  · cases h'.symm.trans h
    exact .kept rfl rfl
  · cases h'.symm.trans h
    exact .refl _

theorem columnChange_of_outcome {x : Served} (hx : ∀ {r s'}, x = .done r s' → ColumnChange s s')
    (h : x.outcome = .next t) : ColumnChange s t := by
  obtain ⟨r, s', hdone, rfl⟩ := outcome_eq_next.1 h
  exact (hx hdone).then_same (State.record_devCol _ _) (State.record_trace _ _)

theorem exec_columnChange {i : Instr} (hi : resetsBlock i = false) (h : exec i s = .next t) : ColumnChange s t := by
  cases i with
  | setColumnAddress col => exact columnChange_of_outcome serveSetColumnAddress_columnChange h
  | readStatus count => exact columnChange_of_outcome serveRead_refuse_columnChange h
  | writeData data => exact columnChange_of_outcome serveWriteData_columnChange h
  | readData count => exact columnChange_of_outcome serveRead_refuse_columnChange h
  | setcolLo l => exact wireByte_columnChange h
  | setcolHi nibble => exact wireByte_columnChange h
  | data d => exact wireByte_columnChange h
  | configDefault => exact columnChange_of_outcome serveConfigDefault_columnChange h
  | configPreset sel => exact columnChange_of_outcome serveConfigPreset_columnChange h
  | configCustom addr => exact columnChange_of_outcome serveConfigCustom_columnChange h
  | configUnassigned =>
    cases h
    exact .kept rfl rfl
  | reset => cases hi
  | drvNew => cases hi
  | drvNewWithAddress option => cases hi
  | drvNewCustomAddress address => cases hi
  | drvWriteData data => exact columnChange_of_outcome serveWriteData_columnChange h
  | drvSetColumnAddress column => exact columnChange_of_outcome serveSetColumnMethod_columnChange h
  | drvDraw x y luma => exact columnChange_of_outcome serveDraw_columnChange h
  | drvSize =>
    cases h
    exact .kept rfl rfl

/-! ### What each change leaves of the invariant -/

/-- A column that is known afterwards is the old one, and no bus operation came after its selection, or it is the one
that the newest bus operation selected. -/
theorem ColumnChange.columnFromTrace (h : ColumnChange s t) (hs : ColumnFromTrace s) : ColumnFromTrace t := by
  intro col hcol
  cases h with
  | kept hc ht =>
    rw [ht]
    exact hs col (hc ▸ hcol)
  | forgotten hc =>
    rw [hc] at hcol
    cases hcol
  | selected col' addr hc ht =>
    obtain rfl : col' = col := Option.some.inj (hc.symm.trans hcol)
    exact ⟨addr, by rw [ht, List.getLast?_concat]⟩

/-- The one bus operation that a step can add to the TRACE is a write (spec/20_memory.md R50). -/
theorem StepTraffic.onlyWrites (h : StepTraffic s t) (hs : OnlyWrites s) : OnlyWrites t := by
  obtain ⟨-, -, ⟨ht, -⟩ | ⟨-, payload, addr, -, -, -, ht, -⟩⟩ := h
  · rwa [OnlyWrites, ht]
  · intro op hop
    rw [ht, List.mem_append, List.mem_singleton] at hop
    rcases hop with hop | rfl
    · exact hs op hop
    · exact ⟨addr, payload, rfl⟩

theorem presetBase_le (p : Preset) : (presetBase p).toNat ≤ 0x7C := by
  cases p <;> decide

/-- Every base that a load can give leaves room for BASE + 3 (spec/20_memory.md R43): DEFAULT_BASE by its premise, the
presets by their values, a custom address by the check. -/
theorem LoadsBase.le {i : Instr} {b : Byte} (h : LoadsBase i b) : b.toNat ≤ 0x7C := by
  rcases h with ⟨-, rfl⟩ | ⟨p, -, rfl⟩ | ⟨a, -, ha, rfl⟩
  · exact defaultBase_le
  · exact presetBase_le p
  · omega

theorem BlockChange.baseFits {i : Instr} (h : BlockChange i s t) (hi : resetsBlock i = false) (hs : BaseFits s) :
    BaseFits t := by
  intro hop
  cases h with
  | kept hsame =>
    rw [hsame.base]
    exact hs (hsame.cfg.symm.trans hop)
  | loaded _ _ hb => exact hb.le
  | faulted _ ht _ _ => cases ht.symm.trans hop
  | wasReset hi' => cases hi.symm.trans hi'

/-! ### The invariant (O43) -/

/-- An instruction that contains a RESET is a RESET, alone or before a request that contains none
(spec/42_driver_layer.md R111 to R113). -/
theorem exec_of_resetsBlock {i : Instr} (hi : resetsBlock i = true) :
    i = .reset ∨ ∃ j, resetsBlock j = false ∧ ∀ s, exec i s = exec j s.resetBlock := by
  cases i with
  | reset => exact .inl rfl
  | drvNew => exact .inr ⟨.configDefault, rfl, fun _ => rfl⟩
  | drvNewWithAddress option => exact .inr ⟨.configPreset option, rfl, fun _ => rfl⟩
  | drvNewCustomAddress address => exact .inr ⟨.configCustom address, rfl, fun _ => rfl⟩
  | _ => cases hi

/-- After a RESET the block is not Operational, and the bus and the device are as they were. -/
theorem MachineInvariant.resetBlock (h : MachineInvariant s) : MachineInvariant s.resetBlock := by
  obtain ⟨-, hwrites, hcol, hout⟩ := h
  exact ⟨nofun, hwrites, hcol, hout⟩

theorem exec_keeps_invariant_of_no_reset {i : Instr} (hi : resetsBlock i = false) (hs : MachineInvariant s)
    (h : exec i s = .next t) : MachineInvariant t := by
  obtain ⟨hbase, hwrites, hcol, hout⟩ := hs
  have htraffic : StepTraffic s t := exec_stepTraffic hout h
  have hout' : NothingOutstanding t := htraffic.1
  exact ⟨(exec_blockChange h).baseFits hi hbase, htraffic.onlyWrites hwrites,
    (exec_columnChange hi h).columnFromTrace hcol, hout'⟩

theorem exec_keeps_invariant {i : Instr} (hs : MachineInvariant s) (h : exec i s = .next t) : MachineInvariant t := by
  cases hi : resetsBlock i with
  | false => exact exec_keeps_invariant_of_no_reset hi hs h
  | true =>
    rcases exec_of_resetsBlock hi with rfl | ⟨j, hj, hexec⟩
    · cases h
      exact hs.resetBlock
    · rw [hexec] at h
      exact exec_keeps_invariant_of_no_reset hj hs.resetBlock h

/-- Settles O43: the invariant does not speak of the inbox and of the call in progress, so what every instruction keeps
every step keeps. -/
theorem everyStepKeepsTheInvariant : Obligations.EveryStepKeepsTheInvariant := by
  intro s t hs h
  rcases step_cases h with ⟨-, -, rfl⟩ | ⟨-, p, rest, i, -, -, hx⟩ | ⟨w, rest, u, -, hx, hu⟩
  · exact hs
  · exact exec_keeps_invariant (s := { s with inbox := rest }) hs hx
  · have hinv : MachineInvariant u := exec_keeps_invariant (s := { s with pending := rest }) hs hx
    rcases hu with ⟨-, rfl⟩ | ⟨-, rfl⟩
    · exact hinv
    · exact hinv

/-! ### The effective address (O2) -/

theorem addressSum_toNat_of_le {base : Byte} (h : base.toNat ≤ 0x7C) (op : OperationType) :
    (addressSum base op).toNat = base.toNat + (offsetOf op).toNat := by
  have hoff : (offsetOf op).toNat < 4 := (offsetOf op).isLt
  rw [addressSum, BitVec.toNat_add, BitVec.toNat_setWidth]
  omega

theorem addressSum_le {base : Byte} (h : base.toNat ≤ 0x7C) (op : OperationType) :
    (addressSum base op).toNat ≤ 0x7F := by
  have hoff : (offsetOf op).toNat < 4 := (offsetOf op).isLt
  rw [addressSum_toNat_of_le h op]
  omega

/-- The 7 bits of the register address hold the whole sum. -/
theorem effectiveAddress_toNat_of_le {base : Byte} (h : base.toNat ≤ 0x7C) (op : OperationType) :
    (effectiveAddress base op).toNat = (addressSum base op).toNat := by
  have hsum : (addressSum base op).toNat ≤ 0x7F := addressSum_le h op
  rw [effectiveAddress, BitVec.toNat_setWidth]
  omega

/-- Settles O2: in an Operational state `BaseFits` bounds BASE, and then neither the 8-bit sum nor its low 7 bits lose
anything. -/
theorem effectiveAddressIsTheExactSum : Obligations.EffectiveAddressIsTheExactSum := by
  intro s op hfits hs
  have hbase : s.base.toNat ≤ 0x7C := hfits hs
  have hsum := addressSum_toNat_of_le hbase op
  exact ⟨hsum, addressSum_le hbase op, (effectiveAddress_toNat_of_le hbase op).trans hsum⟩

end Sys2Proof.Machine
end
section
/-! The column pair of spec/30_encoding.md (O3, O4). A byte is written `high ++ low` throughout: the wire bytes and the
operators of R66 and R67 are brought into that form, where they only move nibbles. -/

namespace Sys2Proof.Machine

/-! ### A byte is its two nibbles (spec/00_scope.md R7) -/

@[simp] theorem lowNibble_append (h l : Nibble) : lowNibble (h ++ l) = l :=
  BitVec.extractLsb'_append_eq_right

@[simp] theorem highNibble_append (h l : Nibble) : highNibble (h ++ l) = h :=
  BitVec.extractLsb'_append_eq_left

@[simp] theorem highNibble_append_lowNibble (b : Byte) : highNibble b ++ lowNibble b = b :=
  (BitVec.extractLsb'_append_extractLsb'_eq_extractLsb' rfl).trans BitVec.extractLsb'_eq_self

theorem toNat_highNibble (b : Byte) : (highNibble b).toNat = b.toNat / 16 := by
  have hb : b.toNat < 256 := b.isLt
  rw [highNibble, BitVec.extractLsb'_toNat, Nat.shiftRight_eq_div_pow]
  omega

theorem toNat_lowNibble (b : Byte) : (lowNibble b).toNat = b.toNat % 16 := by
  rw [lowNibble, BitVec.extractLsb'_toNat, Nat.shiftRight_zero]

theorem and_0F_eq_append (b : Byte) : b &&& 0x0F#8 = 0#4 ++ lowNibble b :=
  calc b &&& 0x0F#8
      = (highNibble b ++ lowNibble b) &&& (0#4 ++ BitVec.allOnes 4) := by rw [highNibble_append_lowNibble]; rfl
    _ = 0#4 ++ lowNibble b := by rw [BitVec.and_append, BitVec.and_zero, BitVec.and_allOnes]

theorem ushiftRight_4_eq_append (b : Byte) : b >>> 4 = 0#4 ++ highNibble b := by
  apply BitVec.eq_of_toNat_eq
  rw [BitVec.toNat_ushiftRight, BitVec.toNat_append, toNat_highNibble, Nat.shiftRight_eq_div_pow]
  simp

theorem shiftLeft_4_eq_append (b : Byte) : b <<< 4 = lowNibble b ++ 0#4 := by
  apply BitVec.eq_of_toNat_eq
  rw [BitVec.toNat_shiftLeft, BitVec.toNat_append, toNat_lowNibble, Nat.shiftLeft_eq, Nat.shiftLeft_eq, BitVec.toNat_ofNat,
    Nat.zero_mod, Nat.or_zero]
  omega

/-! ### The two command bytes, 0000llll and 0001hhhh (R64) -/

theorem setcolLoByte_eq_append (l : Nibble) : setcolLoByte l = 0#4 ++ l :=
  BitVec.setWidth_eq_append (by decide)

theorem setcolHiByte_eq_append (h : Nibble) : setcolHiByte h = 1#4 ++ h :=
  calc setcolHiByte h
      = (1#4 ++ 0#4) ||| (0#4 ++ h) := congrArg (0x10#8 ||| ·) (setcolLoByte_eq_append h)
    _ = 1#4 ++ h := by rw [BitVec.or_append]; simp

theorem setcolLoByte_ne_setcolHiByte (l h : Nibble) : setcolLoByte l ≠ setcolHiByte h := by
  intro heq
  have hhigh := congrArg highNibble heq
  simp [setcolLoByte_eq_append, setcolHiByte_eq_append] at hhigh

/-- The column pair, each byte as its nibbles: the tag above, the half of the column below. -/
theorem setColumnPayload_eq_append (col : Byte) :
    setColumnPayload col = [0#4 ++ lowNibble col, 1#4 ++ highNibble col] := by
  rw [setColumnPayload, setcolLoByte_eq_append, setcolHiByte_eq_append]

/-- The column pair as R66 computes it from the column. -/
theorem setColumnPayload_eq_and_or (col : Byte) :
    setColumnPayload col = [col &&& 0x0F#8, 0x10#8 ||| (col >>> 4)] := by
  rw [setColumnPayload, and_0F_eq_append, ushiftRight_4_eq_append, ← setcolLoByte_eq_append, ← setcolLoByte_eq_append]
  rfl

/-- The tag and the shifted column share no bit, so `|` and `+` agree (R66). -/
theorem tag_or_eq_add (col : Byte) : 0x10#8 ||| (col >>> 4) = (col >>> 4) + 0x10#8 := by
  have hdisjoint : 0x10#8 &&& (col >>> 4) = 0#8 := by
    rw [ushiftRight_4_eq_append]
    exact (BitVec.and_append (x₁ := 1#4) (y₁ := 0#4)).trans (by simp)
  rw [← BitVec.add_eq_or_of_and_eq_zero _ _ hdisjoint, BitVec.add_comm]

/-- Settles O3: the first form is the definition, the second is on nibbles, and the third differs by a disjoint `|`. -/
theorem operandAssemblyOfTheCommands : Obligations.OperandAssemblyOfTheCommands :=
  ⟨fun col => ⟨rfl, setColumnPayload_eq_and_or col, tag_or_eq_add col ▸ setColumnPayload_eq_and_or col⟩, fun _ => rfl⟩

/-! ### The column pair is invertible (R67) -/

/-- The column that a pair of bytes stands for. -/
theorem column_of_setColumnPayload {col b0 b1 : Byte} (h : setColumnPayload col = [b0, b1]) :
    col = (((b1 &&& 0x0F#8) <<< 4) ||| (b0 &&& 0x0F#8)) := by
  rw [setColumnPayload_eq_append] at h
  cases h
  rw [and_0F_eq_append, and_0F_eq_append, shiftLeft_4_eq_append, BitVec.or_append]
  simp

theorem setColumnPayload_injective {c d : Byte} (h : setColumnPayload c = setColumnPayload d) : c = d :=
  (column_of_setColumnPayload h).trans (column_of_setColumnPayload rfl).symm

/-- The bytes with a given high nibble are a range of sixteen. -/
theorem highNibble_eq_iff (b : Byte) (h : Nibble) :
    highNibble b = h ↔ 16 * h.toNat ≤ b.toNat ∧ b.toNat ≤ 16 * h.toNat + 15 := by
  rw [← BitVec.toNat_inj, toNat_highNibble]
  omega

/-- A list of bytes is a column pair exactly where its high nibbles are the two tags. -/
theorem exists_setColumnPayload_iff (bytes : List Byte) :
    (∃ c, setColumnPayload c = bytes) ↔ ∃ b0 b1, bytes = [b0, b1] ∧ highNibble b0 = 0#4 ∧ highNibble b1 = 1#4 := by
  constructor
  · rintro ⟨c, rfl⟩
    exact ⟨_, _, setColumnPayload_eq_append c, highNibble_append _ _, highNibble_append _ _⟩
  · rintro ⟨b0, b1, rfl, h0, h1⟩
    refine ⟨lowNibble b1 ++ lowNibble b0, ?_⟩
    rw [setColumnPayload_eq_append, lowNibble_append, highNibble_append, ← h0, ← h1,
      highNibble_append_lowNibble, highNibble_append_lowNibble]

/-- Settles O4: the inverse gives injectivity, and a high nibble is a range of bytes and fixes bit 4. -/
theorem columnEncodingIsInvertible : Obligations.ColumnEncodingIsInvertible := by
  refine ⟨fun c d => setColumnPayload_injective, fun bytes => ?_, fun c b0 b1 h => ?_⟩
  · simp [exists_setColumnPayload_iff, highNibble_eq_iff]
  · refine ⟨column_of_setColumnPayload h, ?_⟩
    rw [setColumnPayload_eq_append] at h
    cases h
    rw [BitVec.getLsbD_append, BitVec.getLsbD_append]
    exact ⟨rfl, rfl⟩

end Sys2Proof.Machine
end
section
/-! The packets of the requests (log 1): what `decode` reads from a packet of each format, and with that O38, O40 and
O41; and that everything it reads is well formed (O39). -/

namespace Sys2Proof.Machine

/-! ### The packet of each format

The first byte names the format (the table of Decode.lean); the fields on the left only are ignored. -/

section Formats

variable (col sel addr b : Byte) (data fields : List Byte)

theorem decode_req_setColumnAddress : decode (0x00#8 :: col :: data) = .ok (.setColumnAddress col) := rfl
theorem decode_req_readStatus : decode (0x01#8 :: col :: data) = .ok (.readStatus 0) := rfl
theorem decode_req_writeData : decode (0x02#8 :: col :: data) = .ok (.writeData data) := rfl
theorem decode_req_readData : decode (0x03#8 :: col :: data) = .ok (.readData 0) := rfl
theorem decode_cfgreq_default : decode [0x20#8, sel, addr] = .ok .configDefault := rfl
theorem decode_cfgreq_custom : decode [0x22#8, sel, addr] = .ok (.configCustom addr) := rfl
theorem decode_cfgreq_unassigned : decode [0x23#8, sel, addr] = .ok .configUnassigned := rfl
theorem decode_commandByte : decode [0x30#8, b] = decodeCommandByte b := rfl
theorem decode_dataByte : decode [0x31#8, b] = .ok (.data b) := rfl
theorem decode_newWithAddress : decode [0x41#8, b] = decodeOption b := rfl
theorem decode_newCustomAddress : decode [0x42#8, b] = .ok (.drvNewCustomAddress b) := rfl
theorem decode_writeDataMethod : decode (0x43#8 :: data) = .ok (.drvWriteData data) := rfl
theorem decode_setColumnMethod : decode (0x44#8 :: fields) = decodeColumn fields := rfl
theorem decode_draw : decode (0x45#8 :: fields) = decodePixel fields := rfl

end Formats

/-! ### The fields of a packet are read back -/

theorem presetOfCode_presetCode (p : Preset) : presetOfCode (presetCode p) = some p := by
  cases p <;> rfl

theorem decode_cfgreq_preset (p : Preset) (addr : Byte) :
    decode [0x21#8, presetCode p, addr] = .ok (.configPreset p) := by
  cases p <;> rfl

theorem decodeOption_presetCode (p : Preset) : decodeOption (presetCode p) = .ok (.drvNewWithAddress p) := by
  rw [decodeOption, presetOfCode_presetCode]

theorem decodeCommandByte_setcolLoByte (l : Nibble) : decodeCommandByte (setcolLoByte l) = .ok (.setcolLo l) := by
  rw [setcolLoByte_eq_append, decodeCommandByte, highNibble_append, lowNibble_append, if_pos rfl]

theorem decodeCommandByte_setcolHiByte (h : Nibble) : decodeCommandByte (setcolHiByte h) = .ok (.setcolHi h) := by
  rw [setcolHiByte_eq_append, decodeCommandByte, highNibble_append, lowNibble_append, if_neg (by decide), if_pos rfl]

theorem decodeColumn_encodeNat (n : Nat) : decodeColumn (encodeNat n) = .ok (.drvSetColumnAddress n) := by
  have hn := Laws.decodeNat_encodeNat n []
  rw [List.append_nil] at hn
  rw [decodeColumn, hn]

theorem decodePixel_encodeInt (x y : Int) (luma : Byte) :
    decodePixel (encodeInt x ++ (encodeInt y ++ [luma])) = .ok (.drvDraw x y luma) := by
  simp only [decodePixel, Laws.decodeInt_encodeInt]

/-! ### Well-formed instructions (R61, log 13) -/

/-- Under READ_OPS = refuse no read carries a count. -/
theorem countAllowed_iff {n : Nat} : countAllowed Config.readOps n = true ↔ n = 0 :=
  beq_iff_eq

/-- Settles O38: the first byte of its packet selects the instruction's own format, and there each field is read back. A
reserved read is read back because, well formed, it carries no count. -/
theorem decodeInvertsEncode : Obligations.DecodeInvertsEncode := by
  intro i hwf
  cases i with
  | setColumnAddress col => exact decode_req_setColumnAddress col []
  | readStatus count =>
    obtain rfl : count = 0 := countAllowed_iff.1 hwf
    exact decode_req_readStatus _ _
  | writeData data => exact decode_req_writeData _ data
  | readData count =>
    obtain rfl : count = 0 := countAllowed_iff.1 hwf
    exact decode_req_readData _ _
  | setcolLo l => exact (decode_commandByte _).trans (decodeCommandByte_setcolLoByte l)
  | setcolHi h => exact (decode_commandByte _).trans (decodeCommandByte_setcolHiByte h)
  | data d => exact decode_dataByte d
  | configDefault => exact decode_cfgreq_default _ _
  | configPreset sel => exact decode_cfgreq_preset sel _
  | configCustom addr => exact decode_cfgreq_custom _ addr
  | configUnassigned => exact decode_cfgreq_unassigned _ _
  | reset => rfl
  | drvNew => rfl
  | drvNewWithAddress option => exact (decode_newWithAddress _).trans (decodeOption_presetCode option)
  | drvNewCustomAddress address => exact decode_newCustomAddress address
  | drvWriteData data => exact decode_writeDataMethod data
  | drvSetColumnAddress column => exact (decode_setColumnMethod _).trans (decodeColumn_encodeNat column)
  | drvDraw x y luma => exact (decode_draw _).trans (decodePixel_encodeInt x y luma)
  | drvSize => rfl

/-- Settles O40: the packets are cases of the equations of their formats, and 0x13 is a bare wire byte. -/
theorem writtenOutWordsDecode : Obligations.WrittenOutWordsDecode :=
  ⟨decode_req_setColumnAddress _ _, decode_req_writeData _ _, rfl, decode_cfgreq_preset .B _, decode_cfgreq_custom _ _⟩

/-- Settles O41: each format's equation holds for every value of the fields that do not stand on its right. -/
theorem unselectedFieldsAreIgnored : Obligations.UnselectedFieldsAreIgnored := fun col sel addr data =>
  ⟨decode_req_setColumnAddress col data, decode_req_readStatus col data, decode_req_writeData col data,
    decode_req_readData col data, decode_cfgreq_default sel addr, fun p => decode_cfgreq_preset p addr,
    decode_cfgreq_custom sel addr, decode_cfgreq_unassigned sel addr⟩

/-! ### What the decoder reads is well formed (O39) -/

/-- A reading of a packet that gives a well-formed instruction, if it gives one. -/
def ReadsWellFormed (x : Except DecodeError Instr) : Prop := ∀ i, x = .ok i → wellFormed i = true

theorem readsWellFormed_ok {i : Instr} (hi : wellFormed i = true) : ReadsWellFormed (.ok i) := by
  rintro _ ⟨⟩
  exact hi

theorem readsWellFormed_error (e : DecodeError) : ReadsWellFormed (.error e) := nofun

theorem ReadsWellFormed.ite {c : Prop} [Decidable c] {x y : Except DecodeError Instr} (hx : ReadsWellFormed x)
    (hy : ReadsWellFormed y) : ReadsWellFormed (if c then x else y) := by
  split
  · exact hx
  · exact hy

theorem decodeReq_wellFormed (op : OperationType) (col : Byte) (data : List Byte) :
    wellFormed (decodeReq op col data) = true := by
  cases op with
  | setColumnAddress => rfl
  | readStatus => exact countAllowed_iff.2 rfl
  | writeData => rfl
  | readData => exact countAllowed_iff.2 rfl

theorem decodeCfgreq_readsWellFormed (mode : BitVec 2) (sel addr : Byte) :
    ReadsWellFormed (decodeCfgreq mode sel addr) := by
  refine .ite (readsWellFormed_ok rfl) (.ite ?_ (.ite (readsWellFormed_ok rfl) (readsWellFormed_ok rfl)))
  cases presetOfCode sel with
  | some p => exact readsWellFormed_ok rfl
  | none => exact readsWellFormed_error _

theorem decodeCommandByte_readsWellFormed (b : Byte) : ReadsWellFormed (decodeCommandByte b) :=
  .ite (readsWellFormed_ok rfl) (.ite (readsWellFormed_ok rfl) (readsWellFormed_error _))

theorem decodeNoField_readsWellFormed {i : Instr} (hi : wellFormed i = true) (fields : List Byte) :
    ReadsWellFormed (decodeNoField i fields) := by
  cases fields with
  | nil => exact readsWellFormed_ok hi
  | cons => exact readsWellFormed_error _

theorem decodeOneByte_readsWellFormed {f : Byte → Except DecodeError Instr} (hf : ∀ b, ReadsWellFormed (f b))
    (fields : List Byte) : ReadsWellFormed (decodeOneByte f fields) := by
  rcases fields with _ | ⟨b, _ | ⟨b', rest⟩⟩
  · exact readsWellFormed_error _
  · exact hf b
  · exact readsWellFormed_error _

theorem decodeOption_readsWellFormed (b : Byte) : ReadsWellFormed (decodeOption b) := by
  unfold decodeOption
  cases presetOfCode b with
  | some p => exact readsWellFormed_ok rfl
  | none => exact readsWellFormed_error _

theorem decodeColumn_readsWellFormed (fields : List Byte) : ReadsWellFormed (decodeColumn fields) := by
  unfold decodeColumn
  rcases decodeNat fields with _ | ⟨n, _ | ⟨b, rest⟩⟩
  · exact readsWellFormed_error _
  · exact readsWellFormed_ok rfl
  · exact readsWellFormed_error _

theorem decodePixel_readsWellFormed (fields : List Byte) : ReadsWellFormed (decodePixel fields) := by
  unfold decodePixel
  rcases decodeInt fields with _ | ⟨x, rest⟩
  · exact readsWellFormed_error _
  · rcases hy : decodeInt rest with _ | ⟨y, _ | ⟨luma, _ | ⟨b, rest'⟩⟩⟩ <;> simp only [hy]
    · exact readsWellFormed_error _
    · exact readsWellFormed_error _
    · exact readsWellFormed_ok rfl
    · exact readsWellFormed_error _

/-- The first byte selects one of the formats, and each reads only well-formed instructions. -/
theorem decodeTagged_readsWellFormed (tag : Byte) (fields : List Byte) : ReadsWellFormed (decodeTagged tag fields) := by
  refine .ite ?req <| .ite ?bareByte <| .ite ?cfgreq <|
    .ite (decodeNoField_readsWellFormed rfl _) <|
    .ite (decodeOneByte_readsWellFormed decodeCommandByte_readsWellFormed _) <|
    .ite (decodeOneByte_readsWellFormed (fun _ => readsWellFormed_ok rfl) _) <|
    .ite (decodeNoField_readsWellFormed rfl _) <|
    .ite (decodeOneByte_readsWellFormed decodeOption_readsWellFormed _) <|
    .ite (decodeOneByte_readsWellFormed (fun _ => readsWellFormed_ok rfl) _) <|
    .ite (readsWellFormed_ok rfl) <|
    .ite (decodeColumn_readsWellFormed _) <|
    .ite (decodePixel_readsWellFormed _) <|
    .ite (decodeNoField_readsWellFormed rfl _) (readsWellFormed_error _)
  case req =>
    cases fields with
    | nil => exact readsWellFormed_error _
    | cons col data => exact readsWellFormed_ok (decodeReq_wellFormed _ col data)
  case bareByte =>
    cases fields with
    | nil => exact decodeCommandByte_readsWellFormed tag
    | cons => exact readsWellFormed_error _
  case cfgreq =>
    rcases fields with _ | ⟨sel, _ | ⟨addr, _ | ⟨extra, rest⟩⟩⟩
    · exact readsWellFormed_error _
    · exact readsWellFormed_error _
    · exact decodeCfgreq_readsWellFormed _ sel addr
    · exact readsWellFormed_error _

/-- Settles O39: an empty packet is none, and any other goes by its first byte. -/
theorem decodedInstructionsAreWellFormed : Obligations.DecodedInstructionsAreWellFormed := by
  intro p
  cases p with
  | nil => exact readsWellFormed_error _
  | cons tag fields => exact decodeTagged_readsWellFormed tag fields

end Sys2Proof.Machine
end
section
/-! The wire rows (log 14): the byte of a row travels inside a bus write or not at all (O16), and a command delivers what
its rows deliver one after the other (O17). -/

namespace Sys2Proof.Machine

variable {s : State} {op : OperationType}

/-! ### One wire byte (R64, R65, R68) -/

/-- The next byte of the bus write in flight to its channel travels. -/
theorem wireByte_of_next {b : Byte} {rest : List Byte} (hs : s.cfg = .operational)
    (hf : s.inFlight = some ⟨effectiveAddress s.base op, b :: rest⟩) :
    wireByte op b s = .next { s with
      received := s.received ++ [⟨effectiveAddress s.base op, b⟩],
      inFlight := some ⟨effectiveAddress s.base op, rest⟩ } := by
  rcases wireByte_cases op b s with ⟨rest', -, hf', h⟩ | ⟨hno, -⟩
  · cases hf.symm.trans hf'
    exact h
  · exact absurd hf (hno hs rest)

/-- Every other byte changes nothing. -/
theorem wireByte_of_not_next {b : Byte}
    (h : s.cfg ≠ .operational ∨ ∀ rest, s.inFlight ≠ some ⟨effectiveAddress s.base op, b :: rest⟩) :
    wireByte op b s = .next s := by
  rcases wireByte_cases op b s with ⟨rest, hs, hf, -⟩ | ⟨-, h'⟩
  · rcases h with hs' | hno
    · exact absurd hs hs'
    · exact absurd hf (hno rest)
  · exact h'

/-- Settles O16: the three rows are `wireByte` on their channel, with the byte of R64 or R65. -/
theorem wireBytesReachTheirChannel : Obligations.WireBytesReachTheirChannel := by
  intro l h d s
  rw [← setcolLoByte_eq_append, ← setcolHiByte_eq_append]
  exact ⟨fun _ => wireByte_of_next (op := .setColumnAddress), fun _ => wireByte_of_next (op := .setColumnAddress),
    fun _ => wireByte_of_next (op := .writeData), wireByte_of_not_next (op := .setColumnAddress),
    wireByte_of_not_next (op := .setColumnAddress), wireByte_of_not_next (op := .writeData)⟩

/-! ### Several wire rows -/

theorem execAll_cons_of_next {i : Instr} {is : List Instr} {t : State} (h : exec i s = .next t) :
    execAll (i :: is) s = execAll is t := by
  rw [execAll, h]

/-- The instruction is the wire row of the byte, on the channel of the operation type. -/
def IsWireRow (op : OperationType) (i : Instr) (b : Byte) : Prop := ∀ s, exec i s = wireByte op b s

/-- The wire rows of the next bytes of the bus write in flight deliver those bytes in order. -/
theorem execAll_wireRows {is : List Instr} {bs : List Byte} (hrows : List.Forall₂ (IsWireRow op) is bs)
    (rest : List Byte) (hs : s.cfg = .operational)
    (hf : s.inFlight = some ⟨effectiveAddress s.base op, bs ++ rest⟩) :
    execAll is s = .next { s with
      received := s.received ++ bs.map (fun b => ⟨effectiveAddress s.base op, b⟩),
      inFlight := some ⟨effectiveAddress s.base op, rest⟩ } := by
  induction hrows generalizing s with
  | nil =>
    rw [List.nil_append] at hf
    simp [execAll, ← hf]
  | cons hrow _ ih =>
    rw [execAll_cons_of_next ((hrow s).trans (wireByte_of_next hs hf)), ih]
    · simp
    · exact hs
    · rfl

/-! ### A command whose bus write succeeds -/

theorem memWrite_of_ok (hans : s.nextAnswer = .ok) (addr : RegAddr) (v : List Byte) :
    memWrite addr v s = .done .ok ((s.issue (.write addr v)).transfer addr v v.length) := by
  rw [memWrite, hans]

theorem whenOperational_of_operational (hs : s.cfg = .operational) (k : State → Served) :
    whenOperational s k = k s := by
  simp [whenOperational, hs]

/-- A successful SetColumnAddress delivers its column pair. -/
theorem exec_setColumnAddress_delivers (hs : s.cfg = .operational) (hans : s.nextAnswer = .ok) (col : Byte) :
    ∃ t, exec (.setColumnAddress col) s = .next t ∧
      t.received = s.received ++
        (setColumnPayload col).map (fun b => ⟨effectiveAddress s.base .setColumnAddress, b⟩) := by
  rw [exec_setColumnAddress, serveSetColumnAddress, whenOperational_of_operational hs, memWrite_of_ok hans]
  exact ⟨_, rfl, by simp⟩

/-- A successful WriteData delivers its data. -/
theorem exec_writeData_delivers (hs : s.cfg = .operational) (hans : s.nextAnswer = .ok) (data : List Byte) :
    ∃ t, exec (.writeData data) s = .next t ∧
      t.received = s.received ++ data.map (fun b => ⟨effectiveAddress s.base .writeData, b⟩) := by
  rw [exec_writeData, serveWriteData, whenOperational_of_operational hs, memWrite_of_ok hans]
  exact ⟨_, rfl, by simp [writeDataPayload]⟩

/-- The wire rows of a column pair (spec/opcode_table.json, `emits`). -/
theorem setColumnPayload_wireRows (col : Byte) :
    List.Forall₂ (IsWireRow .setColumnAddress) [.setcolLo (lowNibble col), .setcolHi (highNibble col)]
      (setColumnPayload col) :=
  .cons (exec_setcolLo · _) (.cons (exec_setcolHi · _) .nil)

theorem data_wireRows (data : List Byte) :
    List.Forall₂ (IsWireRow .writeData) (data.map .data) data :=
  List.forall₂_map_left_iff.2 (List.forall₂_same.2 fun b _ s => exec_data s b)

/-- Of a column pair in flight the second half does not travel first (R68): it is not the next byte. -/
theorem exec_setcolHi_of_pair {addr : RegAddr} {col : Byte} (hf : s.inFlight = some ⟨addr, setColumnPayload col⟩)
    (h : Nibble) : exec (.setcolHi h) s = .next s := by
  refine wireByte_of_not_next (.inr fun rest hf' => ?_)
  obtain ⟨-, hbyte, -⟩ : addr = _ ∧ setcolLoByte (lowNibble col) = setcolHiByte h ∧ _ = rest := by
    simpa [setColumnPayload] using hf.symm.trans hf'
  exact setcolLoByte_ne_setcolHiByte _ _ hbyte

/-- Settles O17: command and wire rows append the same deliveries, `execAll_wireRows` for the rows. -/
theorem commandsDeliverTheirWireBytes : Obligations.CommandsDeliverTheirWireBytes := by
  refine ⟨fun col s hs hans => ?_, fun data s hs hans => ?_⟩
  · obtain ⟨t, ht, hreceived⟩ := exec_setColumnAddress_delivers hs hans col
    rw [← setColumnPayload_eq_and_or]
    exact ⟨t, _, ht, execAll_wireRows (setColumnPayload_wireRows col) [] hs rfl, hreceived, rfl,
      exec_setcolHi_of_pair rfl _⟩
  · obtain ⟨t, ht, hreceived⟩ := exec_writeData_delivers hs hans data
    exact ⟨t, _, ht, execAll_wireRows (data_wireRows data) [] hs (by simp; rfl), hreceived, rfl⟩

end Sys2Proof.Machine
end
section
/-! The register-offset multiplexer of spec/40_offset_mux.md (O1): the operation type is read back from its offset. -/

namespace Sys2Proof.Machine

/-- The operation type that selects an offset: the register channels of spec/10_state.md R24, read backwards. -/
def operationAt : BitVec 2 → OperationType
  | 0#2 => .setColumnAddress
  | 1#2 => .readStatus
  | 2#2 => .writeData
  | _ => .readData

@[simp] theorem operationAt_offsetOf (op : OperationType) : operationAt (offsetOf op) = op := by
  cases op <;> rfl

/-- Every two-bit offset is selected, so none of the four is left without an operation type. -/
@[simp] theorem offsetOf_operationAt : ∀ offset : BitVec 2, offsetOf (operationAt offset) = offset := by
  decide

theorem offsetOf_bijective : Function.Bijective offsetOf :=
  Function.bijective_iff_has_inverse.2 ⟨operationAt, operationAt_offsetOf, offsetOf_operationAt⟩

/-- Settles O1: the four cases are the definition's, and `operationAt` is its inverse on both sides. -/
theorem multiplexerSelectsTheFourOffsets : Obligations.MultiplexerSelectsTheFourOffsets :=
  ⟨rfl, rfl, rfl, rfl, offsetOf_bijective⟩

end Sys2Proof.Machine
end
section
/-! The commands (spec/41_commands.md): the refusal of every operation request while the block is not Operational (O11),
SetColumnAddress and WriteData (O7, O8), the reserved reads (O9, O10), and for all instructions that nothing reaches the
bus unless Operational (O12) and that the TRACE grows on the two write channels only (O13). -/

namespace Sys2Proof.Machine

variable {s t u : State} {r : Result}

/-! ### Operation requests of a block that is not Operational (R95) -/

theorem serveSetColumnAddress_of_not_operational (hs : s.cfg ≠ .operational) (col : Byte) :
    serveSetColumnAddress col s = .done (.refused .notOperational) s :=
  whenOperational_of_not_operational hs _

theorem serveRead_of_not_operational (hs : s.cfg ≠ .operational) (ops : Config.ReadOps) (op : OperationType)
    (count : Nat) : serveRead ops op count s = .done (.refused .notOperational) s :=
  whenOperational_of_not_operational hs _

theorem serveWriteData_of_not_operational (hs : s.cfg ≠ .operational) (data : List Byte) :
    serveWriteData data s = .done (.refused .notOperational) s.forgetColumn := by
  rw [serveWriteData, whenOperational_of_not_operational hs]
  rfl

theorem exec_setColumnAddress_of_not_operational (hs : s.cfg ≠ .operational) (col : Byte) :
    exec (.setColumnAddress col) s = .next (s.record (.refused .notOperational)) := by
  rw [exec_setColumnAddress, serveSetColumnAddress_of_not_operational hs]
  rfl

theorem exec_readStatus_of_not_operational (hs : s.cfg ≠ .operational) (count : Nat) :
    exec (.readStatus count) s = .next (s.record (.refused .notOperational)) := by
  rw [exec_readStatus, serveRead_of_not_operational hs]
  rfl

theorem exec_readData_of_not_operational (hs : s.cfg ≠ .operational) (count : Nat) :
    exec (.readData count) s = .next (s.record (.refused .notOperational)) := by
  rw [exec_readData, serveRead_of_not_operational hs]
  rfl

theorem exec_writeData_of_not_operational (hs : s.cfg ≠ .operational) (data : List Byte) :
    exec (.writeData data) s = .next (s.forgetColumn.record (.refused .notOperational)) := by
  rw [exec_writeData, serveWriteData_of_not_operational hs]
  rfl

/-- Settles O11. -/
theorem operationsAreRefusedUnlessOperational : Obligations.OperationsAreRefusedUnlessOperational := by
  intro col data n s hs
  simp only [List.forall_mem_cons]
  exact ⟨⟨exec_setColumnAddress_of_not_operational hs col, exec_readStatus_of_not_operational hs n,
    exec_readData_of_not_operational hs n, nofun⟩, exec_writeData_of_not_operational hs data⟩

/-! ### The two bus primitives, with the whole state they leave (spec/00_scope.md R8) -/

theorem memWrite_eq_of_ok (hans : s.nextAnswer = .ok) (addr : RegAddr) (v : List Byte) :
    memWrite addr v s = .done .ok { s with
      trace := s.trace ++ [.write addr v], devCol := none, received := s.received ++ v.map (fun b => ⟨addr, b⟩),
      inFlight := none, answers := s.answers.tail } := by
  rw [memWrite_of_ok hans, transfer_eq, List.take_length]
  rfl

theorem memWrite_eq_of_err {e : Config.BusError} (hans : s.nextAnswer = .err e) (addr : RegAddr) (v : List Byte) :
    memWrite addr v s = .done (.err e) { s with
      trace := s.trace ++ [.write addr v], devCol := none,
      received := s.received ++ (v.take (Config.deliveredOnError s.trace.length)).map (fun b => ⟨addr, b⟩),
      inFlight := none, answers := s.answers.tail } := by
  rw [memWrite, hans]
  simp only [transfer_eq]
  rfl

theorem memRead_eq_of_ok (hans : s.nextAnswer = .ok) (addr : RegAddr) (n : Nat) :
    memRead addr n s = .done (.okBytes (readBytes s.trace.length n)) (s.issue (.read addr n)) := by
  rw [memRead, hans]

theorem memRead_eq_of_err {e : Config.BusError} (hans : s.nextAnswer = .err e) (addr : RegAddr) (n : Nat) :
    memRead addr n s = .done (.err e) (s.issue (.read addr n)) := by
  rw [memRead, hans]

@[simp] theorem length_readBytes (i n : Nat) : (readBytes i n).length = n := by
  simp [readBytes]

/-! ### SetColumnAddress and WriteData (R91, R92) -/

theorem exec_setColumnAddress_of_operational (hs : s.cfg = .operational) (col : Byte) :
    exec (.setColumnAddress col) s =
      ((memWrite (effectiveAddress s.base .setColumnAddress) (setColumnPayload col) s).columnSelected col).outcome := by
  rw [exec_setColumnAddress, serveSetColumnAddress, whenOperational_of_operational hs]

theorem exec_writeData_of_operational (hs : s.cfg = .operational) (data : List Byte) :
    exec (.writeData data) s =
      (memWrite (effectiveAddress s.base .writeData) data s).columnForgotten.outcome := by
  rw [exec_writeData, serveWriteData, whenOperational_of_operational hs, writeDataPayload]

/-- Settles O7: Operational, the request is one MemWrite of the column pair, and only its success selects the column. -/
theorem setColumnAddressWritesOnePair : Obligations.SetColumnAddressWritesOnePair := by
  intro col s
  rw [← setColumnPayload_eq_and_or]
  refine ⟨fun hs => exec_setColumnAddress_of_not_operational hs col, fun hs hans => ?_, fun e hs hans => ?_⟩
  · rw [exec_setColumnAddress_of_operational hs, memWrite_eq_of_ok hans]
    exact ⟨_, rfl⟩
  · rw [exec_setColumnAddress_of_operational hs, memWrite_eq_of_err hans]
    exact ⟨_, _, rfl⟩

/-- Settles O8: Operational, the request is one MemWrite of the data as they are, and the column is unknown after it. -/
theorem writeDataForwardsItsBytes : Obligations.WriteDataForwardsItsBytes := by
  intro data s
  refine ⟨fun hs => exec_writeData_of_not_operational hs data, fun hs hans => ?_, fun e hs hans => ?_⟩
  · rw [exec_writeData_of_operational hs, memWrite_eq_of_ok hans]
    exact ⟨_, rfl⟩
  · rw [exec_writeData_of_operational hs, memWrite_eq_of_err hans]
    exact ⟨_, _, rfl⟩

/-! ### The reserved reads (R93, R94) -/

theorem serveRead_refuse_of_operational (hs : s.cfg = .operational) (op : OperationType) (count : Nat) :
    serveRead .refuse op count s = .done (.refused .reservedOperation) s := by
  rw [serveRead_refuse, if_pos hs]

theorem serveRead_enabled_of_operational (hs : s.cfg = .operational) (op : OperationType) (count : Nat) :
    serveRead .enabled op count s = memRead (effectiveAddress s.base op) count s :=
  whenOperational_of_operational hs _

theorem exec_readStatus_of_operational (hs : s.cfg = .operational) (count : Nat) :
    exec (.readStatus count) s = .next (s.record (.refused .reservedOperation)) := by
  rw [exec_readStatus, serveRead_refuse_of_operational hs]
  rfl

theorem exec_readData_of_operational (hs : s.cfg = .operational) (count : Nat) :
    exec (.readData count) s = .next (s.record (.refused .reservedOperation)) := by
  rw [exec_readData, serveRead_refuse_of_operational hs]
  rfl

/-- An enabled read that the transport answers is one bus read of `count` bytes. -/
theorem serveRead_enabled_of_ok (hs : s.cfg = .operational) (hans : s.nextAnswer = .ok) (op : OperationType)
    (count : Nat) : ∃ bytes col rest, bytes.length = count ∧ serveRead .enabled op count s =
      .done (.okBytes bytes)
        { s with trace := s.trace ++ [.read (effectiveAddress s.base op) count], devCol := col, answers := rest } := by
  rw [serveRead_enabled_of_operational hs, memRead_eq_of_ok hans]
  exact ⟨_, _, _, length_readBytes _ count, rfl⟩

/-- An enabled read that fails is one bus read attempted, with the transport's own error as its result. -/
theorem serveRead_enabled_of_err {e : Config.BusError} (hs : s.cfg = .operational) (hans : s.nextAnswer = .err e)
    (op : OperationType) (count : Nat) : ∃ col rest, serveRead .enabled op count s =
      .done (.err e)
        { s with trace := s.trace ++ [.read (effectiveAddress s.base op) count], devCol := col, answers := rest } := by
  rw [serveRead_enabled_of_operational hs, memRead_eq_of_err hans]
  exact ⟨_, _, rfl⟩

/-- Settles O9: the reserved read whose address is BASE + 1. -/
theorem readStatusIsReserved : Obligations.ReadStatusIsReserved := fun count _ =>
  ⟨fun hs => exec_readStatus_of_operational hs count,
    fun hs => ⟨exec_readStatus_of_not_operational hs count, serveRead_of_not_operational hs _ _ count⟩,
    fun hs hans => serveRead_enabled_of_ok hs hans .readStatus count,
    fun _ hs hans => serveRead_enabled_of_err hs hans .readStatus count⟩

/-- Settles O10: the reserved read whose address is BASE + 3. -/
theorem readDataIsReserved : Obligations.ReadDataIsReserved := fun count _ =>
  ⟨fun hs => exec_readData_of_operational hs count,
    fun hs => ⟨exec_readData_of_not_operational hs count, serveRead_of_not_operational hs _ _ count⟩,
    fun hs hans => serveRead_enabled_of_ok hs hans .readData count,
    fun _ hs hans => serveRead_enabled_of_err hs hans .readData count⟩

/-! ### What a block that is not Operational can change (O12) -/

/-- At most the block (BASE, CFG, the count of RESETs) and the results changed: the TRACE, the transport, the device and
what is still to be presented are as they were. -/
def OnlyBlockChanged (s t : State) : Prop :=
  ∃ base cfg results resets, t = { s with base := base, cfg := cfg, results := results, resets := resets }

theorem OnlyBlockChanged.refl (s : State) : OnlyBlockChanged s s := ⟨_, _, _, _, rfl⟩

theorem OnlyBlockChanged.trans (h : OnlyBlockChanged s t) (h' : OnlyBlockChanged t u) : OnlyBlockChanged s u := by
  obtain ⟨_, _, _, _, rfl⟩ := h
  obtain ⟨_, _, _, _, rfl⟩ := h'
  exact ⟨_, _, _, _, rfl⟩

theorem onlyBlockChanged_record (s : State) (r : Result) : OnlyBlockChanged s (s.record r) := ⟨_, _, _, _, rfl⟩
theorem onlyBlockChanged_loadBase (s : State) (b : Byte) : OnlyBlockChanged s (s.loadBase b) := ⟨_, _, _, _, rfl⟩
theorem onlyBlockChanged_raiseConfigError (s : State) : OnlyBlockChanged s s.raiseConfigError := ⟨_, _, _, _, rfl⟩
theorem onlyBlockChanged_resetBlock (s : State) : OnlyBlockChanged s s.resetBlock := ⟨_, _, _, _, rfl⟩

theorem serveConfigDefault_onlyBlockChanged {d : Byte} (h : serveConfigDefault d s = .done r t) :
    OnlyBlockChanged s t := by
  rcases serveConfigDefault_cases h with ⟨-, -, -, rfl⟩ | ⟨-, -, rfl⟩
  · exact onlyBlockChanged_loadBase s d
  · exact .refl _

theorem serveConfigPreset_onlyBlockChanged {sel : Preset} (h : serveConfigPreset sel s = .done r t) :
    OnlyBlockChanged s t := by
  rcases serveConfigPreset_cases h with ⟨-, -, rfl⟩ | ⟨-, -, rfl⟩
  · exact onlyBlockChanged_loadBase s _
  · exact .refl _

theorem serveConfigCustom_onlyBlockChanged {a : Byte} (h : serveConfigCustom a s = .done r t) :
    OnlyBlockChanged s t := by
  rcases serveConfigCustom_cases h with ⟨-, -, -, rfl⟩ | ⟨-, -, -, rfl⟩ | ⟨-, -, rfl⟩
  · exact onlyBlockChanged_loadBase s a
  · exact onlyBlockChanged_raiseConfigError s
  · exact .refl _

theorem serveRead_refuse_onlyBlockChanged {op : OperationType} {count : Nat}
    (h : serveRead .refuse op count s = .done r t) : OnlyBlockChanged s t := by
  rw [serveRead_refuse] at h
  cases h
  exact .refl s

theorem serveSetColumnAddress_onlyBlockChanged (hs : s.cfg ≠ .operational) {col : Byte}
    (h : serveSetColumnAddress col s = .done r t) : OnlyBlockChanged s t := by
  rw [serveSetColumnAddress_of_not_operational hs] at h
  cases h
  exact .refl s

theorem serveSetColumnMethod_onlyBlockChanged (hs : s.cfg ≠ .operational) {n : Nat}
    (h : serveSetColumnMethod n s = .done r t) : OnlyBlockChanged s t := by
  rcases serveSetColumnMethod_cases h with ⟨-, h⟩ | ⟨-, -, rfl⟩
  · exact serveSetColumnAddress_onlyBlockChanged hs h
  · exact .refl _

/-- The column selection of a draw is refused, so no data write awaits. -/
theorem serveDraw_onlyBlockChanged (hs : s.cfg ≠ .operational) {x y : Int} {luma : Byte}
    (h : serveDraw x y luma s = .done r t) : OnlyBlockChanged s t := by
  rcases serveDraw_cases h with ⟨-, -, rfl⟩ | ⟨-, s', hcol, -, -⟩ | ⟨-, hcol, -⟩
  · exact .refl _
  · rw [serveSetColumnAddress_of_not_operational hs] at hcol
    cases hcol
  · exact serveSetColumnAddress_onlyBlockChanged hs hcol

theorem wireByte_onlyBlockChanged (hs : s.cfg ≠ .operational) {op : OperationType} {b : Byte}
    (h : wireByte op b s = .next t) : OnlyBlockChanged s t := by
  rw [wireByte_of_not_operational hs] at h
  cases h
  exact .refl s

theorem onlyBlockChanged_of_outcome {x : Served} (hx : ∀ {r s'}, x = .done r s' → OnlyBlockChanged s s')
    (h : x.outcome = .next t) : OnlyBlockChanged s t := by
  obtain ⟨r, s', hdone, rfl⟩ := outcome_eq_next.1 h
  exact (hx hdone).trans (onlyBlockChanged_record s' r)

/-- The instruction is a WriteData, as a request or as the driver's method. -/
def IsWriteData (i : Instr) : Prop := ∃ data, i = .writeData data ∨ i = .drvWriteData data

theorem exec_onlyBlockChanged {i : Instr} (hs : s.cfg ≠ .operational) (hi : ¬ IsWriteData i)
    (h : exec i s = .next t) : OnlyBlockChanged s t := by
  cases i with
  | setColumnAddress col => exact onlyBlockChanged_of_outcome (serveSetColumnAddress_onlyBlockChanged hs) h
  | readStatus count => exact onlyBlockChanged_of_outcome serveRead_refuse_onlyBlockChanged h
  | writeData data => exact absurd ⟨data, .inl rfl⟩ hi
  | readData count => exact onlyBlockChanged_of_outcome serveRead_refuse_onlyBlockChanged h
  | setcolLo l => exact wireByte_onlyBlockChanged hs h
  | setcolHi nibble => exact wireByte_onlyBlockChanged hs h
  | data d => exact wireByte_onlyBlockChanged hs h
  | configDefault => exact onlyBlockChanged_of_outcome serveConfigDefault_onlyBlockChanged h
  | configPreset sel => exact onlyBlockChanged_of_outcome serveConfigPreset_onlyBlockChanged h
  | configCustom addr => exact onlyBlockChanged_of_outcome serveConfigCustom_onlyBlockChanged h
  | configUnassigned =>
    cases h
    exact onlyBlockChanged_record s _
  | reset =>
    cases h
    exact onlyBlockChanged_resetBlock s
  | drvNew =>
    exact (onlyBlockChanged_resetBlock s).trans (onlyBlockChanged_of_outcome serveConfigDefault_onlyBlockChanged h)
  | drvNewWithAddress option =>
    exact (onlyBlockChanged_resetBlock s).trans (onlyBlockChanged_of_outcome serveConfigPreset_onlyBlockChanged h)
  | drvNewCustomAddress address =>
    exact (onlyBlockChanged_resetBlock s).trans (onlyBlockChanged_of_outcome serveConfigCustom_onlyBlockChanged h)
  | drvWriteData data => exact absurd ⟨data, .inr rfl⟩ hi
  | drvSetColumnAddress column => exact onlyBlockChanged_of_outcome (serveSetColumnMethod_onlyBlockChanged hs) h
  | drvDraw x y luma => exact onlyBlockChanged_of_outcome (serveDraw_onlyBlockChanged hs) h
  | drvSize =>
    cases h
    exact onlyBlockChanged_record s _

/-- A WriteData is refused, and the device's column is unknown after it (spec/70_reset_and_hazards.md R157). -/
theorem exec_of_isWriteData {i : Instr} (hs : s.cfg ≠ .operational) (hi : IsWriteData i) :
    exec i s = .next (s.forgetColumn.record (.refused .notOperational)) := by
  obtain ⟨data, rfl | rfl⟩ := hi
  · exact exec_writeData_of_not_operational hs data
  · exact exec_writeData_of_not_operational hs data

/-- Settles O12: a WriteData is refused and forgets the column; any other instruction changes at most the block and the
results. -/
theorem nothingReachesTheBusUnlessOperational : Obligations.NothingReachesTheBusUnlessOperational := by
  intro i s t hs h
  by_cases hi : IsWriteData i
  · rw [exec_of_isWriteData hs hi] at h
    cases h
    refine ⟨rfl, rfl, rfl, rfl, fun hno => ?_, fun _ => rfl⟩
    obtain ⟨data, rfl | rfl⟩ := hi
    · exact absurd rfl (hno data).1
    · exact absurd rfl (hno data).2
  · obtain ⟨_, _, _, _, rfl⟩ := exec_onlyBlockChanged hs hi h
    exact ⟨rfl, rfl, rfl, rfl, fun _ => rfl, fun hyes => absurd hyes hi⟩

/-! ### The channels of the TRACE (O13) -/

/-- At most `n` bus operations, each one that a block with this BASE can issue (spec/30_encoding.md R71). -/
def KeepsToChannels (base : Byte) (n : Nat) (ops : List BusOp) : Prop :=
  ops.length ≤ n ∧ ∀ op ∈ ops, OnChannels base op

theorem keepsToChannels_nil (base : Byte) (n : Nat) : KeepsToChannels base n [] := ⟨Nat.zero_le n, nofun⟩

theorem keepsToChannels_singleton {base : Byte} {op : BusOp} (h : OnChannels base op) :
    KeepsToChannels base 1 [op] :=
  ⟨Nat.le_refl 1, List.forall_mem_singleton.2 h⟩

theorem KeepsToChannels.ite {base : Byte} {n : Nat} {c : Prop} [Decidable c] {ops : List BusOp}
    (h : KeepsToChannels base n ops) : KeepsToChannels base n (if c then ops else []) := by
  split
  · exact h
  · exact keepsToChannels_nil base n

theorem columnOperations_keepsToChannels (base : Byte) (cfg : Cfg) (col : Byte) :
    KeepsToChannels base 1 (columnOperations base cfg col) :=
  (keepsToChannels_singleton (onChannels_setColumnAddress base col)).ite

theorem dataOperations_keepsToChannels (base : Byte) (cfg : Cfg) (data : List Byte) :
    KeepsToChannels base 1 (dataOperations base cfg data) :=
  (keepsToChannels_singleton (onChannels_writeData base data)).ite

theorem operationsOf_keepsToChannels (base : Byte) (cfg : Cfg) (i : Instr) :
    KeepsToChannels base (busOperations i) (operationsOf base cfg i) := by
  cases i with
  | setColumnAddress col => exact columnOperations_keepsToChannels base cfg col
  | writeData data => exact dataOperations_keepsToChannels base cfg data
  | drvWriteData data => exact dataOperations_keepsToChannels base cfg data
  | drvSetColumnAddress column => exact (columnOperations_keepsToChannels base cfg _).ite
  | drvDraw x y luma => exact (columnOperations_keepsToChannels base cfg _).ite
  | _ => exact keepsToChannels_nil base _

/-- Settles O13: the new entries are `operationsOf` of the instruction, which keeps to the channels. -/
theorem everyInstructionKeepsToItsChannels : Obligations.EveryInstructionKeepsToItsChannels :=
  fun i s _ h => ⟨operationsOf s.base s.cfg i, exec_trace h, operationsOf_keepsToChannels s.base s.cfg i⟩

end Sys2Proof.Machine
end
section
/-! The driver layer (spec/42_driver_layer.md): the constructors (O27 to O29), the methods (O30 to O32) and `draw` with
the end of a call at its first error (O33 to O35). -/

namespace Sys2Proof.Machine

variable {s t : State} {r : Result}

/-! ### The constructors: RESET, then the configuration request (R111 to R113) -/

theorem serveConfigDefault_of_unconfigured (hs : s.cfg = .unconfigured) :
    serveConfigDefault Config.defaultBase s = .done .ok (s.loadBase Config.defaultBase) := by
  simp [serveConfigDefault, whenUnconfigured_of_unconfigured hs, defaultBase_within_premise]

theorem serveConfigCustom_of_invalid {a : Byte} (hs : s.cfg = .unconfigured) (ha : 0x7B ≤ a.toNat) :
    serveConfigCustom a s = .done .configError s.raiseConfigError := by
  simp [serveConfigCustom, whenUnconfigured_of_unconfigured hs, mt (customBaseValid_iff a).1 (Nat.not_lt.2 ha)]

theorem exec_drvNewWithAddress_eq (option : Preset) (s : State) :
    exec (.drvNewWithAddress option) s = .next ((s.resetBlock.loadBase (presetBase option)).record .ok) := by
  rw [exec_drvNewWithAddress, serveConfigPreset_of_unconfigured option (State.resetBlock_cfg s)]
  rfl

/-- Settles O27: after the RESET the block is Unconfigured, and DEFAULT_BASE is within its premise. -/
theorem newLoadsTheDefaultBase : Obligations.NewLoadsTheDefaultBase := by
  intro s
  rw [exec_drvNew, serveConfigDefault_of_unconfigured (State.resetBlock_cfg s)]
  exact ⟨_, rfl⟩

/-- Settles O28. -/
theorem newWithAddressLoadsAPreset : Obligations.NewWithAddressLoadsAPreset := fun s =>
  ⟨⟨_, exec_drvNewWithAddress_eq .A s⟩, ⟨_, exec_drvNewWithAddress_eq .B s⟩, ⟨_, exec_drvNewWithAddress_eq .C s⟩,
    ⟨_, exec_drvNewWithAddress_eq .D s⟩⟩

/-- Settles O29: after the RESET the block is Unconfigured, so the check of the base decides. -/
theorem newCustomAddressChecksTheBase : Obligations.NewCustomAddressChecksTheBase := by
  intro a s
  refine ⟨fun ha => ?_, fun ha => ?_⟩
  · rw [exec_drvNewCustomAddress, serveConfigCustom_of_valid (State.resetBlock_cfg s) ha]
    exact ⟨_, rfl⟩
  · rw [exec_drvNewCustomAddress, serveConfigCustom_of_invalid (State.resetBlock_cfg s) ha]
    exact ⟨_, _, rfl⟩

/-! ### The methods (R114 to R116) -/

theorem exec_drvWriteData_eq_exec_writeData (data : List Byte) (s : State) :
    exec (.drvWriteData data) s = exec (.writeData data) s := rfl

/-- Settles O30: the method is the request, whose results are those of O8. -/
theorem writeDataMethodDelegates : Obligations.WriteDataMethodDelegates := by
  intro data s
  obtain ⟨-, hok, herr⟩ := writeDataForwardsItsBytes data s
  refine ⟨exec_drvWriteData_eq_exec_writeData data s, hok, fun e hs hans => ?_⟩
  obtain ⟨k, rest, h⟩ := herr e hs hans
  exact ⟨_, h, rfl⟩

theorem serveSetColumnMethod_of_le {n : Nat} (hn : n ≤ 255) (s : State) :
    serveSetColumnMethod n s = serveSetColumnAddress (BitVec.ofNat 8 n) s := if_pos hn

theorem serveSetColumnMethod_of_gt {n : Nat} (hn : 255 < n) (s : State) :
    serveSetColumnMethod n s = .done (.refused .columnOutOfRange) s := if_neg (Nat.not_le.2 hn)

theorem exec_drvSetColumnAddress_of_le {n : Nat} (hn : n ≤ 255) (s : State) :
    exec (.drvSetColumnAddress n) s = exec (.setColumnAddress (BitVec.ofNat 8 n)) s := by
  rw [exec_drvSetColumnAddress, serveSetColumnMethod_of_le hn, exec_setColumnAddress]

/-- The column pair as numbers: the remainder by 16, then the tag 16 with the quotient. -/
theorem setColumnPayload_eq_mod_div (col : Byte) :
    setColumnPayload col = [BitVec.ofNat 8 (col.toNat % 16), BitVec.ofNat 8 (16 + col.toNat / 16)] := by
  have hlo : setcolLoByte (lowNibble col) = BitVec.ofNat 8 (col.toNat % 16) := by
    rw [setcolLoByte, ← BitVec.ofNat_toNat, toNat_lowNibble]
  have hhi : setcolHiByte (highNibble col) = BitVec.ofNat 8 (16 + col.toNat / 16) :=
    calc setcolHiByte (highNibble col)
        = 0x10#8 ||| (col >>> 4) := by rw [ushiftRight_4_eq_append, ← setcolLoByte_eq_append]; rfl
      _ = 0x10#8 + setcolLoByte (highNibble col) := by
        rw [tag_or_eq_add, BitVec.add_comm, ushiftRight_4_eq_append, setcolLoByte_eq_append]
      _ = BitVec.ofNat 8 (16 + col.toNat / 16) := by
        rw [setcolLoByte, ← BitVec.ofNat_toNat, toNat_highNibble, BitVec.ofNat_add]
  rw [setColumnPayload, hlo, hhi]

theorem setColumnPayload_ofNat {n : Nat} (hn : n ≤ 255) :
    setColumnPayload (BitVec.ofNat 8 n) = [BitVec.ofNat 8 (n % 16), BitVec.ofNat 8 (16 + n / 16)] := by
  have hcol : (BitVec.ofNat 8 n).toNat = n := (BitVec.toNat_ofNat _ _).trans (Nat.mod_eq_of_lt (by omega))
  rw [setColumnPayload_eq_mod_div, hcol]

/-- Settles O31: up to 255 the column fits its byte, and the method is the request of O7. -/
theorem setColumnMethodNeverTruncates : Obligations.SetColumnMethodNeverTruncates := by
  intro n s
  refine ⟨fun hn => exec_drvSetColumnAddress_of_le hn s, fun hn hs hans => ?_, fun hn => ?_⟩
  · obtain ⟨-, hok, -⟩ := setColumnAddressWritesOnePair (BitVec.ofNat 8 n) s
    obtain ⟨rest, h⟩ := hok hs hans
    rw [← setColumnPayload_eq_and_or, setColumnPayload_ofNat hn] at h
    exact ⟨_, (exec_drvSetColumnAddress_of_le hn s).trans h, rfl, rfl, rfl⟩
  · rw [exec_drvSetColumnAddress, serveSetColumnMethod_of_gt hn]
    rfl

/-- Settles O32. -/
theorem sizeIsAlways64By64 : Obligations.SizeIsAlways64By64 := exec_drvSize

/-! ### The two requests of a draw, by the bus's answer -/

theorem serveSetColumnAddress_of_ok (hs : s.cfg = .operational) (hans : s.nextAnswer = .ok) (col : Byte) :
    serveSetColumnAddress col s = .done .ok { s with
      trace := s.trace ++ [.write (effectiveAddress s.base .setColumnAddress) (setColumnPayload col)],
      devCol := some col,
      received := s.received ++
        (setColumnPayload col).map (fun b => ⟨effectiveAddress s.base .setColumnAddress, b⟩),
      inFlight := none, answers := s.answers.tail } := by
  rw [serveSetColumnAddress, whenOperational_of_operational hs, memWrite_eq_of_ok hans]
  rfl

theorem serveSetColumnAddress_of_err {e : Config.BusError} (hs : s.cfg = .operational) (hans : s.nextAnswer = .err e)
    (col : Byte) :
    serveSetColumnAddress col s = .done (.err e) { s with
      trace := s.trace ++ [.write (effectiveAddress s.base .setColumnAddress) (setColumnPayload col)],
      devCol := none,
      received := s.received ++ ((setColumnPayload col).take (Config.deliveredOnError s.trace.length)).map
        (fun b => ⟨effectiveAddress s.base .setColumnAddress, b⟩),
      inFlight := none, answers := s.answers.tail } := by
  rw [serveSetColumnAddress, whenOperational_of_operational hs, memWrite_eq_of_err hans]
  rfl

theorem serveWriteData_of_ok (hs : s.cfg = .operational) (hans : s.nextAnswer = .ok) (data : List Byte) :
    serveWriteData data s = .done .ok { s with
      trace := s.trace ++ [.write (effectiveAddress s.base .writeData) data], devCol := none,
      received := s.received ++ data.map (fun b => ⟨effectiveAddress s.base .writeData, b⟩),
      inFlight := none, answers := s.answers.tail } := by
  rw [serveWriteData, whenOperational_of_operational hs, writeDataPayload, memWrite_eq_of_ok hans]
  rfl

theorem serveWriteData_of_err {e : Config.BusError} (hs : s.cfg = .operational) (hans : s.nextAnswer = .err e)
    (data : List Byte) :
    serveWriteData data s = .done (.err e) { s with
      trace := s.trace ++ [.write (effectiveAddress s.base .writeData) data], devCol := none,
      received := s.received ++ (data.take (Config.deliveredOnError s.trace.length)).map
        (fun b => ⟨effectiveAddress s.base .writeData, b⟩),
      inFlight := none, answers := s.answers.tail } := by
  rw [serveWriteData, whenOperational_of_operational hs, writeDataPayload, memWrite_eq_of_err hans]
  rfl

theorem serveWriteData_of_never (hs : s.cfg = .operational) (hans : s.nextAnswer = .never) (data : List Byte) :
    serveWriteData data s = .hang := by
  rw [serveWriteData, whenOperational_of_operational hs, memWrite_eq_hang.2 hans]
  rfl

/-! ### After a request of a call -/

theorem continueCall_outcome_ok (t : State) : continueCall (Served.done .ok t).outcome = .next (t.record .ok) := by
  simp [continueCall, Served.outcome]

theorem continueCall_outcome_of_ne_ok (hr : r ≠ .ok) (t : State) :
    continueCall (Served.done r t).outcome = .next (t.record r).dropPending := by
  simp [continueCall, Served.outcome, hr]

theorem continueCall_outcome_hang : continueCall Served.hang.outcome = .fault .busNeverAnswers := rfl

section DataWrite

variable {data : List Byte} {rest : List Pending}

/-- With a data write to do next, the step is the request WriteData. -/
theorem step_dataWrite (hp : s.pending = .dataWrite data :: rest) :
    step s = continueCall (serveWriteData data { s with pending := rest }).outcome := step_pending hp

theorem step_dataWrite_of_ok (hp : s.pending = .dataWrite data :: rest) (hs : s.cfg = .operational)
    (hans : s.nextAnswer = .ok) :
    step s = .next { s with
      trace := s.trace ++ [.write (effectiveAddress s.base .writeData) data], results := s.results ++ [.ok],
      devCol := none, received := s.received ++ data.map (fun b => ⟨effectiveAddress s.base .writeData, b⟩),
      inFlight := none, answers := s.answers.tail, pending := rest } := by
  rw [step_dataWrite hp, serveWriteData_of_ok (s := { s with pending := rest }) hs hans, continueCall_outcome_ok]
  rfl

theorem step_dataWrite_of_err {e : Config.BusError} (hp : s.pending = .dataWrite data :: rest)
    (hs : s.cfg = .operational) (hans : s.nextAnswer = .err e) :
    step s = .next { s with
      trace := s.trace ++ [.write (effectiveAddress s.base .writeData) data], results := s.results ++ [.err e],
      devCol := none,
      received := s.received ++ (data.take (Config.deliveredOnError s.trace.length)).map
        (fun b => ⟨effectiveAddress s.base .writeData, b⟩),
      inFlight := none, answers := s.answers.tail, pending := [] } := by
  rw [step_dataWrite hp, serveWriteData_of_err (s := { s with pending := rest }) hs hans,
    continueCall_outcome_of_ne_ok (r := .err e) nofun]
  rfl

theorem step_dataWrite_of_never (hp : s.pending = .dataWrite data :: rest) (hs : s.cfg = .operational)
    (hans : s.nextAnswer = .never) : step s = .fault .busNeverAnswers := by
  rw [step_dataWrite hp, serveWriteData_of_never (s := { s with pending := rest }) hs hans]
  rfl

end DataWrite

/-! ### One draw (R117, R118, R120) -/

section InBounds

variable {x y : Int}

theorem pixelInBounds_of_le (hx : 0 ≤ x) (hx' : x ≤ 63) (hy : 0 ≤ y) (hy' : y ≤ 63) : pixelInBounds x y = true :=
  pixelInBounds_iff.2 ⟨hx, by omega, hy, by omega⟩

theorem serveDraw_of_inBounds (hb : pixelInBounds x y = true) (luma : Byte) (s : State) :
    serveDraw x y luma s =
      (serveSetColumnAddress (BitVec.ofNat 8 x.toNat) s).thenAwait (.dataWrite (Config.pixelEncode x y luma)) := by
  have hx : x.toNat ≤ 255 := by have := pixelInBounds_iff.1 hb; omega
  rw [serveDraw, if_pos hb, serveSetColumnMethod_of_le hx]

theorem serveDraw_of_outOfBounds (hb : pixelInBounds x y = false) (luma : Byte) (s : State) :
    serveDraw x y luma s = .done .ok s := by
  simp [serveDraw, hb]

theorem ofNat_toNat_eq_ofInt (hx : 0 ≤ x) : BitVec.ofNat 8 x.toNat = BitVec.ofInt 8 x := by
  rw [← BitVec.ofInt_natCast, Int.toNat_of_nonneg hx]

/-- The column pair of a coordinate in bounds, computed in the integers. -/
theorem setColumnPayload_ofInt (hx : 0 ≤ x) (hx' : x ≤ 63) :
    setColumnPayload (BitVec.ofInt 8 x) = [BitVec.ofInt 8 (x % 16), BitVec.ofInt 8 (16 + x / 16)] := by
  lift x to ℕ using hx
  rw [BitVec.ofInt_natCast, setColumnPayload_ofNat (by omega), ← BitVec.ofInt_natCast, ← BitVec.ofInt_natCast]
  push_cast
  rfl

end InBounds

/-- What a draw leaves where its column selection is answered `Ok`: the pair is written, and the data write is next. -/
def State.columnDrawn (x y : Int) (luma : Byte) (s : State) : State :=
  let addr := effectiveAddress s.base .setColumnAddress
  let pair := setColumnPayload (BitVec.ofInt 8 x)
  { s with
    trace := s.trace ++ [.write addr pair], results := s.results ++ [.ok], devCol := some (BitVec.ofInt 8 x),
    received := s.received ++ pair.map (fun b => ⟨addr, b⟩), inFlight := none, answers := s.answers.tail,
    pending := .dataWrite (Config.pixelEncode x y luma) :: s.pending }

section Draw

variable {x y : Int} {luma : Byte}

theorem exec_drvDraw_of_ok (hb : pixelInBounds x y = true) (hs : s.cfg = .operational) (hans : s.nextAnswer = .ok) :
    exec (.drvDraw x y luma) s = .next (s.columnDrawn x y luma) := by
  obtain ⟨hx, -⟩ := pixelInBounds_iff.1 hb
  rw [exec_drvDraw, serveDraw_of_inBounds hb, serveSetColumnAddress_of_ok hs hans, ofNat_toNat_eq_ofInt hx]
  rfl

theorem exec_drvDraw_of_err {e : Config.BusError} (hb : pixelInBounds x y = true) (hs : s.cfg = .operational)
    (hans : s.nextAnswer = .err e) :
    exec (.drvDraw x y luma) s = (serveSetColumnAddress (BitVec.ofInt 8 x) s).outcome := by
  obtain ⟨hx, -⟩ := pixelInBounds_iff.1 hb
  rw [exec_drvDraw, serveDraw_of_inBounds hb, ofNat_toNat_eq_ofInt hx, serveSetColumnAddress_of_err hs hans]
  rfl

theorem exec_drvDraw_of_not_operational (hb : pixelInBounds x y = true) (hs : s.cfg ≠ .operational) :
    exec (.drvDraw x y luma) s = .next (s.record (.refused .notOperational)) := by
  rw [exec_drvDraw, serveDraw_of_inBounds hb, serveSetColumnAddress_of_not_operational hs]
  rfl

/-- The step of a draw that is presented, where its column selection is answered `Ok`. -/
theorem step_presented_draw {p : List Byte} {inbox : List (List Byte)} (hb : pixelInBounds x y = true)
    (hp : s.pending = []) (hi : s.inbox = p :: inbox) (hd : decode p = .ok (.drvDraw x y luma))
    (hs : s.cfg = .operational) (hans : s.nextAnswer = .ok) :
    step s = .next ({ s with inbox := inbox }.columnDrawn x y luma) :=
  (step_presented hp hi hd).trans (exec_drvDraw_of_ok hb hs hans)

end Draw

/-- Settles O34. -/
theorem drawOutOfBoundsDoesNothing : Obligations.DrawOutOfBoundsDoesNothing := by
  intro x y luma s h
  have hb : pixelInBounds x y = false := Bool.eq_false_iff.2 (mt pixelInBounds_iff.1 (by omega))
  rw [exec_drvDraw, serveDraw_of_outOfBounds hb]
  rfl

/-- Settles O33: a draw presented reaches `columnDrawn` in its own step, and the step after is the data write. -/
theorem drawSelectsTheColumnThenWrites : Obligations.DrawSelectsTheColumnThenWrites := by
  intro x y luma s hx hx' hy hy' hs
  have hb := pixelInBounds_of_le hx hx' hy hy'
  rw [← setColumnPayload_ofInt hx hx']
  refine ⟨fun hans => ⟨_, exec_drvDraw_of_ok hb hs hans⟩, fun p inbox rest hp hi hd ha => ?_,
    fun p inbox rest hp hi hd ha => ?_⟩
  · have hdraw := step_presented_draw hb hp hi hd hs (nextAnswer_of_cons ha)
    have hwrite := step_dataWrite_of_ok (s := { s with inbox := inbox }.columnDrawn x y luma) rfl hs
      (nextAnswer_of_cons (congrArg List.tail ha))
    refine ⟨by rw [hdraw, State.columnDrawn, ha, hp]; rfl, ?_⟩
    have hrun := (run_of_next (k := 1) hdraw).trans (run_of_next (k := 0) hwrite)
    refine hrun.trans (congrArg Host.Outcome.next ?_)
    simp only [State.columnDrawn, ha, hp, List.append_assoc]
    rfl
  · have hdraw := step_presented_draw hb hp hi hd hs (nextAnswer_of_cons ha)
    have hhang := step_dataWrite_of_never (s := { s with inbox := inbox }.columnDrawn x y luma) rfl hs
      (nextAnswer_of_cons (congrArg List.tail ha))
    exact ⟨⟨_, hdraw, rfl, rfl, rfl⟩, (run_of_next hdraw).trans (run_of_fault hhang)⟩

/-! ### A call as a whole (R119, R120) -/

theorem drawAll_cons_of_ok {p : Pixel} {ps : List Pixel} (h : drawPixel p s = .done .ok t) :
    drawAll (p :: ps) s = drawAll ps (t.record .ok) := by
  rw [drawAll, h]

theorem drawAll_cons_of_ne_ok {p : Pixel} {ps : List Pixel} (h : drawPixel p s = .done r t) (hr : r ≠ .ok) :
    drawAll (p :: ps) s = .next (t.record r) := by
  rw [drawAll, h]
  split <;> simp_all

/-- Settles O35: the failing request leaves nothing pending of the pixel, and only a success lets the call go on. -/
theorem drawStopsAtTheFirstError : Obligations.DrawStopsAtTheFirstError := by
  refine ⟨fun x y luma s hx hx' hy hy' => ?_, fun data e rest s hp hs hans => ?_, fun w rest s t hp h => ?_,
    fun p ps r s t h => ?_⟩
  · have hb := pixelInBounds_of_le hx hx' hy hy'
    rw [← setColumnPayload_ofInt hx hx']
    refine ⟨fun e hs hans => ?_, exec_drvDraw_of_not_operational hb⟩
    rw [exec_drvDraw_of_err hb hs hans, serveSetColumnAddress_of_err hs hans]
    exact ⟨_, _, rfl⟩
  · exact ⟨_, _, step_dataWrite_of_err hp hs hans⟩
  · rw [step_pending_next hp h]
    exact ⟨fun hok => by rw [if_pos hok], fun hno => by rw [if_neg hno]; rfl⟩
  · refine ⟨?_, drawAll_cons_of_ne_ok h⟩
    rintro rfl
    exact drawAll_cons_of_ok h

end Sys2Proof.Machine
end
section
/-! A sequence of pixels (spec/42_driver_layer.md R119, R120): what it writes where every request succeeds (O36), and
that the steps of the call come to `drawAll` (O46). -/

namespace Sys2Proof.Machine

variable {s t : State} {r : Result}

/-! ### A sequence whose requests all succeed (O36) -/

theorem drawPixel_of_inBounds {p : Pixel} (hb : pixelInBounds p.x p.y = true) (s : State) :
    drawPixel p s = (serveSetColumnAddress (BitVec.ofNat 8 p.x.toNat) s).andThen
      (serveWriteData (Config.pixelEncode p.x p.y p.luma)) := by
  have hx : p.x.toNat ≤ 255 := by have := pixelInBounds_iff.1 hb; omega
  rw [drawPixel, if_pos hb, serveSetColumnMethod_of_le hx]

theorem drawPixel_of_outOfBounds {p : Pixel} (hb : pixelInBounds p.x p.y = false) (s : State) :
    drawPixel p s = .done .ok s := by
  simp [drawPixel, hb]

theorem pixelOperations_of_inBounds {p : Pixel} (hb : pixelInBounds p.x p.y = true) (base : Byte) :
    pixelOperations base p =
      [.write (effectiveAddress base .setColumnAddress) (setColumnPayload (BitVec.ofNat 8 p.x.toNat)),
        .write (effectiveAddress base .writeData) (Config.pixelEncode p.x p.y p.luma)] := by
  rw [pixelOperations, if_pos (pixelInBounds_iff.1 hb), setColumnPayload_eq_and_or, effectiveAddress_setColumnAddress,
    effectiveAddress_writeData]

theorem pixelOperations_of_outOfBounds {p : Pixel} (hb : pixelInBounds p.x p.y = false) (base : Byte) :
    pixelOperations base p = [] :=
  if_neg (mt pixelInBounds_iff.2 (Bool.eq_false_iff.1 hb))

/-- Two writes for each pixel in bounds. -/
theorem length_flatMap_pixelOperations (base : Byte) (ps : List Pixel) :
    (ps.flatMap (pixelOperations base)).length =
      2 * (ps.filter (fun p => decide (0 ≤ p.x ∧ p.x < 64 ∧ 0 ≤ p.y ∧ p.y < 64))).length := by
  induction ps with
  | nil => rfl
  | cons p ps ih =>
    rw [List.flatMap_cons, List.length_append, ih, List.filter_cons]
    by_cases hb : 0 ≤ p.x ∧ p.x < 64 ∧ 0 ≤ p.y ∧ p.y < 64
    · rw [pixelOperations, if_pos hb, if_pos (decide_eq_true hb)]
      simp only [List.length_cons, List.length_nil]
      omega
    · rw [pixelOperations, if_neg hb, if_neg (mt of_decide_eq_true hb), List.length_nil, Nat.zero_add]

/-- `t` is `s` after these bus operations, which used up the answers before `rest`; the block is the same. -/
structure WroteOnly (ops : List BusOp) (rest : List Config.BusAnswer) (s t : State) : Prop where
  trace : t.trace = s.trace ++ ops
  answers : t.answers = rest
  block : SameBlock s t

theorem drawPixel_wroteOnly {p : Pixel} {rest : List Config.BusAnswer} (hs : s.cfg = .operational)
    (ha : s.answers = List.replicate (pixelOperations s.base p).length .ok ++ rest) :
    ∃ t, drawPixel p s = .done .ok t ∧ WroteOnly (pixelOperations s.base p) rest s t := by
  cases hb : pixelInBounds p.x p.y with
  | true =>
    rw [pixelOperations_of_inBounds hb] at ha ⊢
    rw [drawPixel_of_inBounds hb, serveSetColumnAddress_of_ok hs (nextAnswer_of_cons ha), Served.andThen,
      serveWriteData_of_ok (by exact hs) (nextAnswer_of_cons (congrArg List.tail ha))]
    refine ⟨_, rfl, ?_, congrArg (List.tail ∘ List.tail) ha, rfl, rfl⟩
    simp
  | false =>
    rw [pixelOperations_of_outOfBounds hb] at ha ⊢
    exact ⟨s, drawPixel_of_outOfBounds hb s, (List.append_nil _).symm, ha, .refl s⟩

/-- By induction on the sequence: a pixel that wrote what it should leaves the rest of the call its own answers. -/
theorem drawAll_wroteOnly (ps : List Pixel) {s : State} {rest : List Config.BusAnswer} (hs : s.cfg = .operational)
    (ha : s.answers = List.replicate (ps.flatMap (pixelOperations s.base)).length .ok ++ rest) :
    ∃ t, drawAll ps s = .next t ∧ WroteOnly (ps.flatMap (pixelOperations s.base)) rest s t := by
  induction ps generalizing s with
  | nil => exact ⟨s, rfl, (List.append_nil _).symm, ha, .refl s⟩
  | cons p ps ih =>
    rw [List.flatMap_cons, List.length_append, ← List.replicate_append_replicate, List.append_assoc] at ha
    obtain ⟨u, hu, htrace, hanswers, hbase, hcfg⟩ := drawPixel_wroteOnly hs ha
    obtain ⟨t, ht, htrace', hanswers', hbase', hcfg'⟩ :=
      ih (s := u.record .ok) (hcfg.trans hs) (by rw [State.record_answers, State.record_base, hbase, hanswers])
    refine ⟨t, (drawAll_cons_of_ok hu).trans ht, ?_, hanswers', hbase'.trans hbase, hcfg'.trans hcfg⟩
    rw [htrace', State.record_trace, State.record_base, htrace, hbase, List.flatMap_cons, List.append_assoc]

/-- Settles O36: each pixel in turn adds its own operations and uses up their answers. -/
theorem pixelSequencesAreNotBatched : Obligations.PixelSequencesAreNotBatched := by
  intro ps s rest hs ha
  obtain ⟨t, ht, htrace, hanswers, hbase, hcfg⟩ := drawAll_wroteOnly ps hs ha
  exact ⟨t, ht, htrace, hanswers, hbase, hcfg, length_flatMap_pixelOperations s.base ps⟩

/-! ### A request does not look at the call in progress (O46) -/

/-- The same end of a request, with this as what the call in progress has still to do. -/
def Served.withPending (q : List Pending) : Served → Served
  | .done r s => .done r { s with pending := q }
  | .hang => .hang

/-- The request neither reads nor writes what the call in progress has still to do. -/
def IgnoresPending (serve : State → Served) : Prop :=
  ∀ (q : List Pending) (s : State), serve { s with pending := q } = (serve s).withPending q

/-- Serving it leaves that as it was: put back what is pending already, and nothing differs. -/
theorem IgnoresPending.pending_eq {serve : State → Served} (h : IgnoresPending serve) (hr : serve s = .done r t) :
    t.pending = s.pending := by
  have hself : serve s = (serve s).withPending s.pending := h s.pending s
  rw [hr] at hself
  obtain ⟨-, ht⟩ := Served.done.inj hself
  rw [ht]

theorem memWrite_ignoresPending (op : OperationType) (v : List Byte) :
    IgnoresPending fun s => memWrite (effectiveAddress s.base op) v s := by
  intro q s
  have hans : State.nextAnswer { s with pending := q } = s.nextAnswer := rfl
  simp only [memWrite, hans]
  cases s.nextAnswer <;> rfl

theorem IgnoresPending.whenOperational {serve : State → Served} (h : IgnoresPending serve) :
    IgnoresPending fun s => whenOperational s serve := by
  intro q s
  by_cases hs : s.cfg = .operational
  · simp only [whenOperational_of_operational hs, whenOperational_of_operational (s := { s with pending := q }) hs, h q s]
  · simp only [whenOperational_of_not_operational hs,
      whenOperational_of_not_operational (s := { s with pending := q }) hs]
    rfl

theorem IgnoresPending.columnSelected {serve : State → Served} (h : IgnoresPending serve) (col : Byte) :
    IgnoresPending fun s => (serve s).columnSelected col := by
  intro q s
  simp only [h q s]
  rcases serve s with ⟨r, t⟩ | _
  · cases r <;> rfl
  · rfl

theorem IgnoresPending.columnForgotten {serve : State → Served} (h : IgnoresPending serve) :
    IgnoresPending fun s => (serve s).columnForgotten := by
  intro q s
  simp only [h q s]
  cases serve s <;> rfl

theorem serveSetColumnAddress_ignoresPending (col : Byte) : IgnoresPending (serveSetColumnAddress col) :=
  ((memWrite_ignoresPending .setColumnAddress (setColumnPayload col)).columnSelected col).whenOperational

theorem serveWriteData_ignoresPending (data : List Byte) : IgnoresPending (serveWriteData data) :=
  (memWrite_ignoresPending .writeData data).whenOperational.columnForgotten

/-! ### A call, request by request (O46) -/

/-- A request of a call taken as a whole, and what comes after its success; any other result ends the call. -/
def Served.continueWith (next : State → Host.Outcome State Fault Refusal) :
    Served → Host.Outcome State Fault Refusal
  | .done .ok s => next (s.record .ok)
  | .done r s => .next (s.record r)
  | .hang => .fault .busNeverAnswers

theorem continueWith_of_ne_ok (hr : r ≠ .ok) (next : State → Host.Outcome State Fault Refusal) :
    (Served.done r t).continueWith next = .next (t.record r) := by
  cases r with
  | ok => exact absurd rfl hr
  | _ => rfl

theorem drawAll_cons (p : Pixel) (ps : List Pixel) (s : State) :
    drawAll (p :: ps) s = (drawPixel p s).continueWith (drawAll ps) := by
  rcases hx : drawPixel p s with ⟨r, t⟩ | _
  · by_cases hr : r = .ok
    · subst hr
      exact drawAll_cons_of_ok hx
    · rw [drawAll_cons_of_ne_ok hx hr, continueWith_of_ne_ok hr]
  · rw [drawAll, hx]
    rfl

theorem andThen_continueWith (x : Served) (second : State → Served)
    (next : State → Host.Outcome State Fault Refusal) :
    (x.andThen second).continueWith next = x.continueWith fun s => (second s).continueWith next := by
  rcases x with ⟨r, s⟩ | _
  · cases r <;> rfl
  · rfl

theorem thenAwait_withPending (w : Pending) (q : List Pending) (x : Served) :
    (x.thenAwait w).withPending q = x.withPending q := by
  rcases x with ⟨r, s⟩ | _
  · cases r <;> rfl
  · rfl

/-- Some run of at most `n` steps from `s` comes to this outcome. -/
def RunsWithin (n : Nat) (s : State) (o : Host.Outcome State Fault Refusal) : Prop :=
  ∃ k, k ≤ n ∧ Sys2Proof.core.run k s = o

theorem RunsWithin.refl (n : Nat) (s : State) : RunsWithin n s (.next s) := ⟨0, Nat.zero_le n, rfl⟩

theorem RunsWithin.mono {m n : Nat} {o : Host.Outcome State Fault Refusal} (hmn : m ≤ n) (h : RunsWithin m s o) :
    RunsWithin n s o := by
  obtain ⟨k, hk, hrun⟩ := h
  exact ⟨k, hk.trans hmn, hrun⟩

theorem RunsWithin.of_next {n : Nat} {o : Host.Outcome State Fault Refusal} (h : step s = .next t)
    (ht : RunsWithin n t o) : RunsWithin (n + 1) s o := by
  obtain ⟨k, hk, hrun⟩ := ht
  exact ⟨k + 1, Nat.succ_le_succ hk, (run_of_next h).trans hrun⟩

theorem RunsWithin.of_fault {f : Fault} (n : Nat) (h : step s = .fault f) : RunsWithin (n + 1) s (.fault f) :=
  ⟨1, Nat.le_add_left 1 n, run_of_fault h⟩

/-- A step that serves a request of a call, and after its success a run of the rest of the call, come to the call read
as a whole, in which nothing is pending. -/
theorem RunsWithin.of_request {n : Nat} {x y : Served} {next : State → Host.Outcome State Fault Refusal}
    (hstep : step s = continueCall x.outcome) (hy : y = x.withPending [])
    (hnext : ∀ t, x = .done .ok t → RunsWithin n (t.record .ok) (next (t.record .ok).dropPending)) :
    RunsWithin (n + 1) s (y.continueWith next) := by
  subst hy
  rcases x with ⟨r, t⟩ | _
  · by_cases hr : r = .ok
    · subst hr
      exact .of_next (hstep.trans (continueCall_outcome_ok t)) (hnext t rfl)
    · rw [Served.withPending, continueWith_of_ne_ok hr]
      exact .of_next (hstep.trans (continueCall_outcome_of_ne_ok hr t)) (.refl n _)
  · exact .of_fault n (hstep.trans continueCall_outcome_hang)

section Call

variable {rest : List Pending} {n : Nat} {next : State → Host.Outcome State Fault Refusal}

/-- The data write of a pixel, and the rest of the call. -/
theorem runsWithin_dataWrite {data : List Byte} (hp : s.pending = .dataWrite data :: rest)
    (hnext : ∀ t : State, t.pending = rest → RunsWithin n t (next t.dropPending)) :
    RunsWithin (n + 1) s ((serveWriteData data s.dropPending).continueWith next) := by
  have hdata := serveWriteData_ignoresPending data
  exact .of_request (step_dataWrite hp) (hdata [] { s with pending := rest }) fun t ht =>
    hnext (t.record .ok) (hdata.pending_eq ht)

/-- With a pixel to draw next, the step is the draw of that pixel. -/
theorem step_pixel {p : Pixel} (hp : s.pending = .pixel p :: rest) :
    step s = continueCall (serveDraw p.x p.y p.luma { s with pending := rest }).outcome := step_pending hp

/-- A pixel, in one step or two, and the rest of the call. -/
theorem runsWithin_pixel {p : Pixel} (hp : s.pending = .pixel p :: rest)
    (hnext : ∀ t : State, t.pending = rest → RunsWithin n t (next t.dropPending)) :
    RunsWithin (n + 2) s ((drawPixel p s.dropPending).continueWith next) := by
  cases hb : pixelInBounds p.x p.y with
  | true =>
    have hcol := serveSetColumnAddress_ignoresPending (BitVec.ofNat 8 p.x.toNat)
    have hstep := step_pixel hp
    rw [serveDraw_of_inBounds hb] at hstep
    rw [drawPixel_of_inBounds hb, andThen_continueWith]
    refine .of_request hstep ?_ fun t ht => ?_
    · rw [thenAwait_withPending]
      exact hcol [] { s with pending := rest }
    · rcases thenAwait_eq_done.1 ht with ⟨u, hu, -, rfl⟩ | ⟨-, hno⟩
      · exact runsWithin_dataWrite (congrArg (_ :: ·) (hcol.pending_eq hu)) hnext
      · exact absurd rfl hno
  | false =>
    have hstep := step_pixel hp
    rw [serveDraw_of_outOfBounds hb] at hstep
    rw [drawPixel_of_outOfBounds hb]
    refine RunsWithin.mono (Nat.le_succ (n + 1)) (.of_request hstep rfl fun t ht => ?_)
    obtain ⟨-, rfl⟩ := Served.done.inj ht
    exact hnext _ rfl

end Call

/-- The induction of O46, on the pixels still pending; the whole is read from a state with none of them pending. -/
theorem runsWithin_drawAll (ps : List Pixel) {s : State} (hp : s.pending = ps.map .pixel) :
    RunsWithin (2 * ps.length) s (drawAll ps s.dropPending) := by
  induction ps generalizing s with
  | nil =>
    have hs : s.dropPending = s := by rw [State.dropPending, ← List.map_nil, ← hp]
    rw [hs]
    exact .refl _ s
  | cons p ps ih =>
    rw [drawAll_cons]
    exact runsWithin_pixel hp fun t ht => ih ht

/-- Settles O46: the call presented is the sequence with its pixels pending. -/
theorem drawingCallsRunStepByStep : Obligations.DrawingCallsRunStepByStep := by
  intro ps s hp
  have hs : (s.presentPixels ps).dropPending = s := by rw [State.dropPending, State.presentPixels, ← hp]
  have hrun := runsWithin_drawAll ps (s := s.presentPixels ps) rfl
  rwa [hs] at hrun

end Sys2Proof.Machine
end
section
/-! The exceptions (spec/60_exceptions.md): what runs without a RESET keep, that ConfigError comes from a custom
configuration only (O22), and that the block is silent in ConfigFault until a RESET (O44). -/

namespace Sys2Proof.Machine

variable {s t : State} {r : Result}

/-! ### Instructions leave the inbox alone

Only `step` takes a packet from the inbox, so no RESET comes into it. -/

theorem OnlyBlockChanged.inbox (h : OnlyBlockChanged s t) : t.inbox = s.inbox := by
  obtain ⟨_, _, _, _, rfl⟩ := h
  rfl

theorem serveSetColumnAddress_inbox {col : Byte} (h : serveSetColumnAddress col s = .done r t) :
    t.inbox = s.inbox := by
  rcases serveSetColumnAddress_cases h with ⟨-, -, rfl⟩ | ⟨-, -, -, rfl⟩ | ⟨-, -, -, -, rfl⟩ <;> simp

theorem serveWriteData_inbox {data : List Byte} (h : serveWriteData data s = .done r t) : t.inbox = s.inbox := by
  rcases serveWriteData_cases h with ⟨-, -, rfl⟩ | ⟨-, -, -, rfl⟩ | ⟨-, -, -, -, rfl⟩ <;> simp

theorem serveSetColumnMethod_inbox {n : Nat} (h : serveSetColumnMethod n s = .done r t) : t.inbox = s.inbox := by
  rcases serveSetColumnMethod_cases h with ⟨-, h⟩ | ⟨-, -, rfl⟩
  · exact serveSetColumnAddress_inbox h
  · rfl

theorem serveDraw_inbox {x y : Int} {luma : Byte} (h : serveDraw x y luma s = .done r t) : t.inbox = s.inbox := by
  rcases serveDraw_cases h with ⟨-, -, rfl⟩ | ⟨-, s', hcol, -, rfl⟩ | ⟨-, hcol, -⟩
  · rfl
  · exact (State.await_inbox s' _).trans (serveSetColumnAddress_inbox hcol)
  · exact serveSetColumnAddress_inbox hcol

theorem wireByte_inbox {op : OperationType} {b : Byte} (h : wireByte op b s = .next t) : t.inbox = s.inbox := by
  rcases wireByte_cases op b s with ⟨rest, -, -, h'⟩ | ⟨-, h'⟩
  · cases h'.symm.trans h
    rfl
  · cases h'.symm.trans h
    rfl

theorem inbox_of_outcome {x : Served} (hx : ∀ {r s'}, x = .done r s' → s'.inbox = s.inbox)
    (h : x.outcome = .next t) : t.inbox = s.inbox := by
  obtain ⟨r, s', hdone, rfl⟩ := outcome_eq_next.1 h
  exact (State.record_inbox s' r).trans (hx hdone)

theorem exec_inbox {i : Instr} (h : exec i s = .next t) : t.inbox = s.inbox := by
  cases i with
  | setColumnAddress col => exact inbox_of_outcome serveSetColumnAddress_inbox h
  | readStatus count => exact inbox_of_outcome (fun hd => (serveRead_refuse_onlyBlockChanged hd).inbox) h
  | writeData data => exact inbox_of_outcome serveWriteData_inbox h
  | readData count => exact inbox_of_outcome (fun hd => (serveRead_refuse_onlyBlockChanged hd).inbox) h
  | setcolLo l => exact wireByte_inbox h
  | setcolHi nibble => exact wireByte_inbox h
  | data d => exact wireByte_inbox h
  | configDefault => exact inbox_of_outcome (fun hd => (serveConfigDefault_onlyBlockChanged hd).inbox) h
  | configPreset sel => exact inbox_of_outcome (fun hd => (serveConfigPreset_onlyBlockChanged hd).inbox) h
  | configCustom addr => exact inbox_of_outcome (fun hd => (serveConfigCustom_onlyBlockChanged hd).inbox) h
  | configUnassigned =>
    cases h
    rfl
  | reset =>
    cases h
    rfl
  | drvNew =>
    exact inbox_of_outcome (s := s.resetBlock) (fun hd => (serveConfigDefault_onlyBlockChanged hd).inbox) h
  | drvNewWithAddress option =>
    exact inbox_of_outcome (s := s.resetBlock) (fun hd => (serveConfigPreset_onlyBlockChanged hd).inbox) h
  | drvNewCustomAddress address =>
    exact inbox_of_outcome (s := s.resetBlock) (fun hd => (serveConfigCustom_onlyBlockChanged hd).inbox) h
  | drvWriteData data => exact inbox_of_outcome serveWriteData_inbox h
  | drvSetColumnAddress column => exact inbox_of_outcome serveSetColumnMethod_inbox h
  | drvDraw x y luma => exact inbox_of_outcome serveDraw_inbox h
  | drvSize =>
    cases h
    rfl

/-! ### Runs without a RESET -/

/-- A driver call in progress has no RESET ahead of it. -/
theorem resetsBlock_pendingInstr (w : Pending) : resetsBlock w.instr = false := by
  cases w <;> rfl

theorem step_keeps_noResetAhead (hn : NoResetAhead s) (h : step s = .next t) : NoResetAhead t := by
  rcases step_cases h with ⟨-, -, rfl⟩ | ⟨-, p, rest, i, hp, -, hx⟩ | ⟨w, rest, u, -, hx, hu⟩
  · exact hn
  · have hinbox : t.inbox = rest := exec_inbox (s := { s with inbox := rest }) hx
    intro q hq
    exact hn q (by rw [hp]; exact List.mem_cons_of_mem p (hinbox ▸ hq))
  · have hinbox : u.inbox = s.inbox := exec_inbox (s := { s with pending := rest }) hx
    have hnu : NoResetAhead u := by rwa [NoResetAhead, hinbox]
    rcases hu with ⟨-, rfl⟩ | ⟨-, rfl⟩
    · exact hnu
    · exact hnu

/-- Every instruction without a RESET keeps the property, which does not speak of what is still to be presented. -/
structure KeptWithoutReset (P : State → Prop) : Prop where
  exec : ∀ {i s t}, resetsBlock i = false → P s → exec i s = .next t → P t
  requests : ∀ {s} inbox pending, P s → P { s with inbox := inbox, pending := pending }

theorem KeptWithoutReset.step {P : State → Prop} (hP : KeptWithoutReset P) (hn : NoResetAhead s) (hs : P s)
    (h : step s = .next t) : P t := by
  rcases step_cases h with ⟨-, -, rfl⟩ | ⟨-, p, rest, i, hp, hd, hx⟩ | ⟨w, rest, u, -, hx, hu⟩
  · exact hs
  · have hi : resetsBlock i = false := hn p (by simp [hp]) i hd
    exact hP.exec hi (hP.requests rest s.pending hs) hx
  · have hPu : P u := hP.exec (resetsBlock_pendingInstr w) (hP.requests s.inbox rest hs) hx
    rcases hu with ⟨-, rfl⟩ | ⟨-, rfl⟩
    · exact hPu
    · exact hP.requests u.inbox [] hPu

/-- What every instruction without a RESET keeps holds along every run that has no RESET ahead. -/
theorem KeptWithoutReset.run {P : State → Prop} (hP : KeptWithoutReset P) {k : Nat} (hn : NoResetAhead s) (hs : P s)
    (h : Sys2Proof.core.run k s = .next t) : P t := by
  induction k generalizing s with
  | zero =>
    cases h
    exact hs
  | succ k ih =>
    obtain ⟨s', hstep, hrun⟩ := run_eq_next h
    exact ih (step_keeps_noResetAhead hn hstep) (hP.step hn hs hstep) hrun

/-! ### ConfigFault is silent (O44) -/

/-- Once the block is configured, or in ConfigFault, only a RESET changes BASE or CFG
(spec/70_reset_and_hazards.md R150, R154). -/
theorem exec_sameBlock_of_not_unconfigured {i : Instr} (hs : s.cfg ≠ .unconfigured) (hi : resetsBlock i = false)
    (h : exec i s = .next t) : SameBlock s t := by
  cases exec_blockChange h with
  | kept hsame => exact hsame
  | loaded hu _ _ => exact absurd hu hs
  | faulted hu _ _ _ => exact absurd hu hs
  | wasReset hi' => cases hi.symm.trans hi'

/-- The block is in ConfigFault, and since `s₀` BASE is constant and nothing has passed over the bus. -/
structure FaultedAndSilentSince (s₀ s : State) : Prop where
  cfg : s.cfg = .configFault
  base : s.base = s₀.base
  trace : s.trace = s₀.trace
  received : s.received = s₀.received

theorem faultedAndSilentSince_kept (s₀ : State) : KeptWithoutReset (FaultedAndSilentSince s₀) where
  exec := by
    intro i s t hi hs h
    have hconfigured : s.cfg ≠ .unconfigured := by simp [hs.cfg]
    have hoperational : s.cfg ≠ .operational := by simp [hs.cfg]
    have hblock : SameBlock s t := exec_sameBlock_of_not_unconfigured hconfigured hi h
    obtain ⟨htrace, hreceived, -⟩ := nothingReachesTheBusUnlessOperational i s t hoperational h
    exact ⟨hblock.cfg.trans hs.cfg, hblock.base.trans hs.base, htrace.trans hs.trace, hreceived.trans hs.received⟩
  requests := fun _ _ hs => ⟨hs.cfg, hs.base, hs.trace, hs.received⟩

/-- Settles O44: `FaultedAndSilentSince` holds of the first state and is kept by every instruction without a RESET. -/
theorem configFaultIsSilentUntilReset : Obligations.ConfigFaultIsSilentUntilReset := by
  intro k s t hs hn h
  obtain ⟨hcfg, hbase, htrace, hreceived⟩ := (faultedAndSilentSince_kept s).run hn ⟨hs, rfl, rfl, rfl⟩ h
  exact ⟨hcfg, hbase, htrace, hreceived⟩

/-! ### The one source of ConfigError (O22) -/

theorem invalid_custom_of_enters_configFault {i : Instr} (hi : resetsBlock i = false) (h : exec i s = .next t)
    (hs : s.cfg ≠ .configFault) (ht : t.cfg = .configFault) : ∃ a, i = .configCustom a ∧ 0x7B ≤ a.toNat := by
  cases exec_blockChange h with
  | kept hsame => exact absurd (hsame.cfg.symm.trans ht) hs
  | loaded _ hop _ => cases hop.symm.trans ht
  | faulted _ _ _ hcustom => exact hcustom
  | wasReset hi' => cases hi.symm.trans hi'

/-- Settles O22: a constructor of the driver enters ConfigFault by the configuration request after its RESET. -/
theorem configErrorComesFromCustomOnly : Obligations.ConfigErrorComesFromCustomOnly := by
  refine ⟨fun a s hs ha => ?_, fun i s t h ht hs => ?_⟩
  · rw [exec_configCustom, serveConfigCustom_of_invalid hs ha]
    rfl
  · cases hi : resetsBlock i with
    | false =>
      obtain ⟨a, rfl, ha⟩ := invalid_custom_of_enters_configFault hi h hs ht
      exact ⟨a, ha, .inl rfl⟩
    | true =>
      have hreset : s.resetBlock.cfg ≠ .configFault := nofun
      cases i with
      | reset =>
        cases h
        cases ht
      | drvNew =>
        obtain ⟨a, hdefault, -⟩ := invalid_custom_of_enters_configFault (i := .configDefault) rfl h hreset ht
        cases hdefault
      | drvNewWithAddress option =>
        obtain ⟨a, hpreset, -⟩ := invalid_custom_of_enters_configFault (i := .configPreset option) rfl h hreset ht
        cases hpreset
      | drvNewCustomAddress address =>
        obtain ⟨a, hcustom, ha⟩ := invalid_custom_of_enters_configFault (i := .configCustom address) rfl h hreset ht
        cases hcustom
        exact ⟨address, ha, .inr rfl⟩
      | _ => cases hi

end Sys2Proof.Machine
end
section
/-! Reset and hazards (spec/70_reset_and_hazards.md): what a run without a RESET keeps of an Operational block (O45), the
configuration requests and RESET (O18 to O21, O23), and the bus that never answers (O15). -/

namespace Sys2Proof.Machine

variable {s : State}

/-! ### Operational runs (O45) -/

/-- The block is Operational, and since `s₀` BASE is constant and every bus operation went to one of its two channels. -/
structure OperationalOnChannelsSince (s₀ s : State) : Prop where
  cfg : s.cfg = .operational
  base : s.base = s₀.base
  trace : ∃ new, s.trace = s₀.trace ++ new ∧ ∀ op ∈ new, OnChannels s₀.base op

theorem OperationalOnChannelsSince.refl (hs : s.cfg = .operational) : OperationalOnChannelsSince s s :=
  ⟨hs, rfl, [], (List.append_nil _).symm, nofun⟩

/-- The entries of one more instruction go to the channels of the present BASE, which is that of `s₀`. -/
theorem operationalOnChannelsSince_kept (s₀ : State) : KeptWithoutReset (OperationalOnChannelsSince s₀) where
  exec := by
    intro i s t hi hs h
    have hblock : SameBlock s t := exec_sameBlock_of_not_unconfigured (by simp [hs.cfg]) hi h
    obtain ⟨old, hold, honold⟩ := hs.trace
    obtain ⟨new, hnew, -, honnew⟩ := everyInstructionKeepsToItsChannels i s t h
    rw [hs.base] at honnew
    refine ⟨hblock.cfg.trans hs.cfg, hblock.base.trans hs.base, old ++ new, ?_, ?_⟩
    · rw [hnew, hold, List.append_assoc]
    · exact List.forall_mem_append.2 ⟨honold, honnew⟩
  requests := fun _ _ hs => ⟨hs.cfg, hs.base, hs.trace⟩

/-- Settles O45: `OperationalOnChannelsSince` holds of the first state and is kept by every instruction without a
RESET. -/
theorem operationalRunsKeepTheirBase : Obligations.OperationalRunsKeepTheirBase := by
  intro k s t hs hn h
  obtain ⟨hcfg, hbase, htrace⟩ := (operationalOnChannelsSince_kept s).run hn (.refl hs) h
  exact ⟨hcfg, hbase, htrace⟩

/-! ### Configuration requests (R151 to R154) -/

theorem defaultBaseOutsidePremise_iff (d : Byte) : defaultBaseOutsidePremise d = true ↔ 0x7C < d.toNat := by
  simp [defaultBaseOutsidePremise, BitVec.ult]

theorem serveConfigDefault_of_le {d : Byte} (hs : s.cfg = .unconfigured) (hd : d.toNat ≤ 0x7C) :
    serveConfigDefault d s = .done .ok (s.loadBase d) := by
  rw [serveConfigDefault, whenUnconfigured_of_unconfigured hs,
    if_neg (mt (defaultBaseOutsidePremise_iff d).1 (Nat.not_lt.2 hd))]

theorem serveConfigDefault_of_refused {d : Byte} (h : s.cfg ≠ .unconfigured ∨ 0x7C < d.toNat) :
    serveConfigDefault d s = .done (.refused .badConfigRequest) s := by
  by_cases hs : s.cfg = .unconfigured
  · have hd : 0x7C < d.toNat := h.resolve_left (not_not_intro hs)
    rw [serveConfigDefault, whenUnconfigured_of_unconfigured hs, if_pos ((defaultBaseOutsidePremise_iff d).2 hd)]
  · exact whenUnconfigured_of_not_unconfigured hs _

/-- A configuration request outside Unconfigured returns its refusal and changes nothing (R154). -/
theorem outcome_whenUnconfigured_of_not_unconfigured (hs : s.cfg ≠ .unconfigured) (serve : State → Served) :
    (whenUnconfigured s serve).outcome = .next (s.record (.refused .badConfigRequest)) := by
  rw [whenUnconfigured_of_not_unconfigured hs]
  rfl

theorem exec_configDefault_of_not_unconfigured (hs : s.cfg ≠ .unconfigured) :
    exec .configDefault s = .next (s.record (.refused .badConfigRequest)) :=
  outcome_whenUnconfigured_of_not_unconfigured hs _

theorem exec_configPreset_of_not_unconfigured (hs : s.cfg ≠ .unconfigured) (sel : Preset) :
    exec (.configPreset sel) s = .next (s.record (.refused .badConfigRequest)) :=
  outcome_whenUnconfigured_of_not_unconfigured hs _

theorem exec_configCustom_of_not_unconfigured (hs : s.cfg ≠ .unconfigured) (a : Byte) :
    exec (.configCustom a) s = .next (s.record (.refused .badConfigRequest)) :=
  outcome_whenUnconfigured_of_not_unconfigured hs _

theorem exec_configPreset_of_unconfigured (hs : s.cfg = .unconfigured) (sel : Preset) :
    exec (.configPreset sel) s = .next ((s.loadBase (presetBase sel)).record .ok) := by
  rw [exec_configPreset, serveConfigPreset_of_unconfigured sel hs]
  rfl

/-- Settles O18: the test is on DEFAULT_BASE alone, and this hardware's own is within the premise (log 6). -/
theorem configDefaultLoadsDefaultBase : Obligations.ConfigDefaultLoadsDefaultBase := by
  refine ⟨fun s hs => ?_, fun s => exec_configDefault_of_not_unconfigured, fun d s => serveConfigDefault_of_le,
    fun d s => serveConfigDefault_of_refused⟩
  rw [exec_configDefault, serveConfigDefault_of_le hs defaultBase_le]
  rfl

/-- Settles O19. -/
theorem configPresetLoadsItsBase : Obligations.ConfigPresetLoadsItsBase :=
  ⟨fun _ hs => ⟨exec_configPreset_of_unconfigured hs .A, exec_configPreset_of_unconfigured hs .B,
    exec_configPreset_of_unconfigured hs .C, exec_configPreset_of_unconfigured hs .D⟩,
    fun p _ hs => exec_configPreset_of_not_unconfigured hs p⟩

/-- Settles O20: in Unconfigured the check of the address decides. -/
theorem configCustomLoadsOrFaults : Obligations.ConfigCustomLoadsOrFaults := by
  intro a s
  refine ⟨fun hs ha => ?_, fun hs ha => ?_, fun hs => exec_configCustom_of_not_unconfigured hs a⟩
  · rw [exec_configCustom, serveConfigCustom_of_valid hs ha]
    rfl
  · rw [exec_configCustom, serveConfigCustom_of_invalid hs ha]
    rfl

/-- Settles O21. -/
theorem oneConfigurationLoadPerReset : Obligations.OneConfigurationLoadPerReset := by
  refine ⟨fun p a s hs => ?_, exec_configUnassigned, fun i s t hs hi h => ?_⟩
  · simp only [List.forall_mem_cons]
    exact ⟨exec_configDefault_of_not_unconfigured hs, exec_configPreset_of_not_unconfigured hs p,
      exec_configCustom_of_not_unconfigured hs a, nofun⟩
  · have hblock : SameBlock s t := exec_sameBlock_of_not_unconfigured (by simp [hs]) hi h
    exact ⟨hblock.base, hblock.cfg.trans hs⟩

/-- Settles O23. -/
theorem resetIsTheOnlyWayOut : Obligations.ResetIsTheOnlyWayOut :=
  ⟨fun s => ⟨_, _, exec_reset s⟩, fun _ _ _ hs h hi => (exec_sameBlock_of_not_unconfigured hs hi h).cfg⟩

/-! ### Where a request hangs (R159) -/

/-- The block would put an operation on a bus that never answers it. -/
structure Unanswered (s : State) : Prop where
  cfg : s.cfg = .operational
  answer : s.nextAnswer = .never

theorem unanswered_iff : Unanswered s ↔ s.cfg = .operational ∧ s.nextAnswer = .never :=
  ⟨fun ⟨hs, hans⟩ => ⟨hs, hans⟩, fun ⟨hs, hans⟩ => ⟨hs, hans⟩⟩

theorem whenOperational_eq_hang {serve : State → Served} :
    whenOperational s serve = .hang ↔ s.cfg = .operational ∧ serve s = .hang := by
  by_cases hs : s.cfg = .operational
  · simp [whenOperational_of_operational hs, hs]
  · simp [whenOperational_of_not_operational hs, hs]

theorem whenUnconfigured_ne_hang {serve : State → Served} (hserve : serve s ≠ .hang) :
    whenUnconfigured s serve ≠ .hang := by
  by_cases hs : s.cfg = .unconfigured
  · rwa [whenUnconfigured_of_unconfigured hs]
  · rw [whenUnconfigured_of_not_unconfigured hs]
    nofun

theorem columnSelected_eq_hang {x : Served} {col : Byte} : x.columnSelected col = .hang ↔ x = .hang := by
  rcases x with ⟨r, s⟩ | _
  · cases r <;> simp [Served.columnSelected]
  · simp [Served.columnSelected]

theorem columnForgotten_eq_hang {x : Served} : x.columnForgotten = .hang ↔ x = .hang := by
  cases x <;> simp [Served.columnForgotten]

theorem thenAwait_eq_hang {x : Served} {w : Pending} : x.thenAwait w = .hang ↔ x = .hang := by
  rcases x with ⟨r, s⟩ | _
  · cases r <;> simp [Served.thenAwait]
  · simp [Served.thenAwait]

theorem serveSetColumnAddress_eq_hang {col : Byte} : serveSetColumnAddress col s = .hang ↔ Unanswered s := by
  rw [serveSetColumnAddress, whenOperational_eq_hang, columnSelected_eq_hang, memWrite_eq_hang, unanswered_iff]

theorem serveWriteData_eq_hang {data : List Byte} : serveWriteData data s = .hang ↔ Unanswered s := by
  rw [serveWriteData, columnForgotten_eq_hang, whenOperational_eq_hang, memWrite_eq_hang, unanswered_iff]

theorem serveSetColumnMethod_eq_hang {n : Nat} : serveSetColumnMethod n s = .hang ↔ n ≤ 255 ∧ Unanswered s := by
  rcases Nat.lt_or_ge 255 n with hn | hn
  · simp [serveSetColumnMethod_of_gt hn, Nat.not_le.2 hn]
  · simp [serveSetColumnMethod_of_le hn, serveSetColumnAddress_eq_hang, hn]

theorem serveDraw_eq_hang {x y : Int} {luma : Byte} :
    serveDraw x y luma s = .hang ↔ pixelInBounds x y = true ∧ Unanswered s := by
  cases hb : pixelInBounds x y with
  | false => simp [serveDraw_of_outOfBounds hb]
  | true => simp [serveDraw_of_inBounds hb, thenAwait_eq_hang, serveSetColumnAddress_eq_hang]

theorem serveRead_refuse_ne_hang (op : OperationType) (count : Nat) (s : State) :
    serveRead .refuse op count s ≠ .hang := by
  rw [serveRead_refuse]
  nofun

theorem serveConfigDefault_ne_hang (d : Byte) (s : State) : serveConfigDefault d s ≠ .hang := by
  refine whenUnconfigured_ne_hang ?_
  split <;> nofun

theorem serveConfigPreset_ne_hang (sel : Preset) (s : State) : serveConfigPreset sel s ≠ .hang :=
  whenUnconfigured_ne_hang nofun

theorem serveConfigCustom_ne_hang (a : Byte) (s : State) : serveConfigCustom a s ≠ .hang := by
  refine whenUnconfigured_ne_hang ?_
  split <;> nofun

/-! ### How an instruction ends -/

/-- An outcome in `s` of what issues at most `n` bus operations: the next state, or the hang. -/
inductive GoesOnOrHangs (n : Nat) (s : State) (o : Host.Outcome State Fault Refusal) : Prop where
  | goesOn (t : State) (h : o = .next t)
  | hangs (h : o = .fault .busNeverAnswers) (hs : Unanswered s) (hn : n = 1)

theorem goesOnOrHangs_of_ne_hang {x : Served} (n : Nat) (s : State) (hx : x ≠ .hang) : GoesOnOrHangs n s x.outcome := by
  cases x with
  | done r t => exact .goesOn _ rfl
  | hang => exact absurd rfl hx

theorem goesOnOrHangs_of_hang {x : Served} (hx : x = .hang → Unanswered s) : GoesOnOrHangs 1 s x.outcome := by
  cases x with
  | done r t => exact .goesOn _ rfl
  | hang => exact .hangs rfl (hx rfl) rfl

theorem exec_goesOnOrHangs (i : Instr) (s : State) : GoesOnOrHangs (busOperations i) s (exec i s) := by
  cases i with
  | setColumnAddress col => exact goesOnOrHangs_of_hang serveSetColumnAddress_eq_hang.1
  | readStatus count => exact goesOnOrHangs_of_ne_hang _ s (serveRead_refuse_ne_hang _ count s)
  | writeData data => exact goesOnOrHangs_of_hang serveWriteData_eq_hang.1
  | readData count => exact goesOnOrHangs_of_ne_hang _ s (serveRead_refuse_ne_hang _ count s)
  | setcolLo l => exact .goesOn _ rfl
  | setcolHi h => exact .goesOn _ rfl
  | data d => exact .goesOn _ rfl
  | configDefault => exact goesOnOrHangs_of_ne_hang _ s (serveConfigDefault_ne_hang _ s)
  | configPreset sel => exact goesOnOrHangs_of_ne_hang _ s (serveConfigPreset_ne_hang sel s)
  | configCustom addr => exact goesOnOrHangs_of_ne_hang _ s (serveConfigCustom_ne_hang addr s)
  | configUnassigned => exact .goesOn _ rfl
  | reset => exact .goesOn _ rfl
  | drvNew => exact goesOnOrHangs_of_ne_hang _ s (serveConfigDefault_ne_hang _ s.resetBlock)
  | drvNewWithAddress option => exact goesOnOrHangs_of_ne_hang _ s (serveConfigPreset_ne_hang option s.resetBlock)
  | drvNewCustomAddress address => exact goesOnOrHangs_of_ne_hang _ s (serveConfigCustom_ne_hang address s.resetBlock)
  | drvWriteData data => exact goesOnOrHangs_of_hang serveWriteData_eq_hang.1
  | drvSetColumnAddress column => exact goesOnOrHangs_of_hang fun h => (serveSetColumnMethod_eq_hang.1 h).2
  | drvDraw x y luma => exact goesOnOrHangs_of_hang fun h => (serveDraw_eq_hang.1 h).2
  | drvSize => exact .goesOn _ rfl

theorem outcome_of_hang {x : Served} (h : x = .hang) : x.outcome = .fault .busNeverAnswers := by
  rw [h]
  rfl

/-- Every request that puts an operation on the bus meets the bus that never answers. -/
theorem exec_fault_of_unanswered (hs : Unanswered s) (col : Byte) (data : List Byte) (luma : Byte) {n : Nat}
    (hn : n ≤ 255) {x y : Int} (hb : pixelInBounds x y = true) :
    ∀ i ∈ [Instr.setColumnAddress col, .writeData data, .drvWriteData data, .drvSetColumnAddress n, .drvDraw x y luma],
      exec i s = .fault .busNeverAnswers := by
  simp only [List.forall_mem_cons]
  exact ⟨outcome_of_hang (serveSetColumnAddress_eq_hang.2 hs), outcome_of_hang (serveWriteData_eq_hang.2 hs),
    outcome_of_hang (serveWriteData_eq_hang.2 hs), outcome_of_hang (serveSetColumnMethod_eq_hang.2 ⟨hn, hs⟩),
    outcome_of_hang (serveDraw_eq_hang.2 ⟨hb, hs⟩), nofun⟩

/-! ### How a step ends -/

/-- The request that a call in progress makes next goes on or hangs, and with it the step. -/
theorem step_pending_goesOnOrHangs {w : Pending} {rest : List Pending} (hp : s.pending = w :: rest) :
    GoesOnOrHangs 1 s (step s) := by
  cases exec_goesOnOrHangs w.instr { s with pending := rest } with
  | goesOn t h => exact .goesOn _ (step_pending_next hp h)
  | hangs h hs _ => exact .hangs (step_pending_fault hp h) ⟨hs.cfg, hs.answer⟩ rfl

theorem step_presented_goesOnOrHangs {p : List Byte} {rest : List (List Byte)} {i : Instr} (hp : s.pending = [])
    (hi : s.inbox = p :: rest) (hd : decode p = .ok i) : GoesOnOrHangs 1 s (step s) := by
  rw [step_presented hp hi hd]
  cases exec_goesOnOrHangs i { s with inbox := rest } with
  | goesOn t h => exact .goesOn t h
  | hangs h hs _ => exact .hangs h ⟨hs.cfg, hs.answer⟩ rfl

/-- Only a packet that is no request keeps a step from going on or hanging (log 1). -/
theorem step_goesOnOrHangs_or_undecodable (s : State) :
    GoesOnOrHangs 1 s (step s) ∨
      (s.pending = [] ∧ ∃ p rest e, s.inbox = p :: rest ∧ decode p = .error e ∧ step s = .refused (.undecodable e)) := by
  cases hp : s.pending with
  | cons w rest => exact .inl (step_pending_goesOnOrHangs hp)
  | nil =>
    cases hi : s.inbox with
    | nil => exact .inl (.goesOn s (step_idle hp hi))
    | cons p rest =>
      cases hd : decode p with
      | ok i => exact .inl (step_presented_goesOnOrHangs hp hi hd)
      | error e => exact .inr ⟨rfl, p, rest, e, rfl, hd, step_undecodable hp hi hd⟩

theorem step_pending_next_of_busLive (hp : s.pending ≠ []) (hlive : s.cfg ≠ .operational ∨ BusLive s) :
    ∃ t, step s = .next t := by
  obtain ⟨w, rest, hp⟩ := List.exists_cons_of_ne_nil hp
  cases step_pending_goesOnOrHangs hp with
  | goesOn t h => exact ⟨t, h⟩
  | hangs _ hs _ =>
    rcases hlive with hcfg | hlive
    · exact absurd hs.cfg hcfg
    · exact absurd hs.answer hlive

theorem unanswered_of_step_fault {f : Fault} (h : step s = .fault f) : Unanswered s := by
  rcases step_goesOnOrHangs_or_undecodable s with hstep | ⟨-, p, rest, e, -, -, hstep⟩
  · cases hstep with
    | goesOn t h' => cases h.symm.trans h'
    | hangs _ hs _ => exact hs
  · cases h.symm.trans hstep

theorem undecodable_of_step_refused {why : Refusal} (h : step s = .refused why) :
    s.pending = [] ∧ ∃ p rest e, s.inbox = p :: rest ∧ decode p = .error e ∧ why = .undecodable e := by
  rcases step_goesOnOrHangs_or_undecodable s with hstep | ⟨hp, p, rest, e, hi, hd, hstep⟩
  · cases hstep with
    | goesOn t h' => cases h.symm.trans h'
    | hangs h' _ _ => cases h.symm.trans h'
  · cases h.symm.trans hstep
    exact ⟨hp, p, rest, e, hi, hd, rfl⟩

/-- Settles O15: an instruction ends by `exec_goesOnOrHangs`, and the step adds the decoding. -/
theorem anUnansweredBusIsTheOnlyStop : Obligations.AnUnansweredBusIsTheOnlyStop := by
  refine ⟨fun i s => ?_, fun col data n x y luma s hs hans hn hx hx' hy hy' => ?_,
    fun data rest s => step_dataWrite_of_never, fun s => step_pending_next_of_busLive,
    fun s f h => unanswered_iff.1 (unanswered_of_step_fault h), fun s why => undecodable_of_step_refused⟩
  · cases exec_goesOnOrHangs i s with
    | goesOn t h => exact .inl ⟨t, h⟩
    | hangs h hs hn => exact .inr ⟨h, hs.cfg, hs.answer, hn⟩
  · exact exec_fault_of_unanswered ⟨hs, hans⟩ col data luma hn (pixelInBounds_of_le hx hx' hy hy')

end Sys2Proof.Machine
end
